-- ==== Sys2Proof/Word.lean ====
section
/-! DEFINITION. The word type of the port: every byte that crosses it is a `Byte`. -/

namespace Sys2Proof

/-- One byte of a frame, an argument area or a payload (chapter 10). -/
abbrev Byte := BitVec 8

end Sys2Proof
end

