-- ==== Sys2Proof/Config.lean ====
section
/-! DEFINITION. What the silicon fixes: the sizes of the part and the numbers READ_STATUS returns for it.
The spec leaves no value of this part open after a command, so there is no free value here (log entry 1). -/

namespace Sys2Proof.Config

/-- Slots of the Switch-Point Table, and so handles 0 to 511 (R1). -/
def slotCount : Nat := 512

/-- Items a pending list holds at most (R104, R105). -/
def listCapacity : Nat := 32

/-- The largest magnitude of a backlog (R50). -/
def backlogLimit : Nat := 1023

/-- Consecutive samples of STOP that must show a new level before it is recognized (R145). -/
def stopSamples : Nat := 11

/-- The family code of the CX432 (R192). -/
def familyCode : Byte := 0x34#8

/-- The silicon revision number this manual describes (R192). -/
def siliconRevision : Byte := 1#8

end Sys2Proof.Config
end

