-- ==== Sys2Proof/Events.lean ====
section
/-! DEFINITION. The operand types of the commands beside the bytes of a transaction: line levels, and the
orders in which the spec lets claims be taken. -/

namespace Sys2Proof

/-- The number of one of the four axes AX0 to AX3. -/
abbrev AxisId := Fin 4

/-- The number of one of the 32 output lines OUT0 to OUT31. -/
abbrev OutId := Fin 32

/-- The levels of the three input lines of one axis; `true` is the high level. -/
structure Lines where
  a : Bool
  b : Bool
  z : Bool
deriving DecidableEq, Repr

/-- The claims that the neighbours of an axis make when it faults (R55). -/
inductive FaultClaim where
  /-- The Sweep Evaluator ends the activity of all entries of the axis silently. -/
  | silentEnd
  /-- The Edit Lists apply a closed list of the axis, without a settle. -/
  | applyList
  /-- The Integrity Unit takes the fault into the fault report. -/
  | report
  /-- Attention sets AXIS_CHANGED. -/
  | attention
  /-- The Safe-State Controller releases the waiting outputs of the axis, or enters SAFE. -/
  | safeState
deriving DecidableEq, Repr

/-- An item that READ_STATUS or READ_OUTPUT takes as a claim of its own (R184, R102). -/
inductive ReadItem where
  /-- the device condition -/
  | condition
  /-- the latched attention set and the mask -/
  | attention
  /-- the number of members of the notify set -/
  | members
  /-- whether the fault report is valid -/
  | report
  /-- the six slot counts -/
  | slots
  /-- the state of an axis, a claim of its own (log entry 20) -/
  | axis (a : AxisId)
  /-- the family code and the revision number -/
  | silicon
  /-- the record of an output, with its computed level and pin level -/
  | output (o : OutId)
  /-- the numbers of entries that target an output -/
  | targets (o : OutId)
deriving DecidableEq, Repr

/-- A claim of a channel's work, or of a request's, before which the work can stop, for claims of others to come between
(R58, R77, R131, R160, R184). -/
inductive StopPoint where
  /-- before the handing of a fire of this handle (R131) -/
  | handing (handle : Nat)
  /-- between the first and the second claim of the fence of this handle (R160) -/
  | fenceOutput (handle : Nat)
  /-- before the third claim of the fence of this handle (R160) -/
  | fenceReport (handle : Nat)
  /-- before the work on the entry of this handle (R58, R77) -/
  | entry (handle : Nat)
  /-- before an item of a response is taken (R184, R102) -/
  | item (item : ReadItem)
deriving DecidableEq, Repr

/-- The order in which the claims of one fault are taken, which the spec leaves open (R95, R119, R164).
`claims` is taken first and in its order; the claims it does not name follow in the order of R55. With
`silentLater` the silent end is left waiting for the channel (AXIS_SILENT_END takes it). The channel's work stops before
a claim that `stops` names. -/
structure FaultOrder where
  claims : List FaultClaim
  silentLater : Bool
  stops : List StopPoint
deriving DecidableEq, Repr

/-- The order in which R55 lists the claims, without a stop. -/
def FaultOrder.manual : FaultOrder := ⟨[], false, []⟩

/-- How the claims of a request fall in time, which the spec leaves open (R180; log entry 13). With `workLater` its block
does not work at the acceptance. The work stops before a claim that `stops` names. A response made of several claims
takes first the items that `order` names, in its order. -/
structure Pace where
  workLater : Bool
  stops : List StopPoint
  order : List ReadItem
deriving DecidableEq, Repr

/-- The block works in the step of the acceptance, without a stop. -/
def Pace.prompt : Pace := ⟨false, [], []⟩

/-- A request as its row carries it: the bytes of the transaction after the request code (R186), and its pace. -/
structure Sent where
  rest : List Byte
  pace : Pace
deriving DecidableEq, Repr

/-- The axis whose channel works, and the claims before which its work stops (R57, R58; log entry 13). -/
structure ChannelTurn where
  axis : AxisId
  stops : List StopPoint
deriving DecidableEq, Repr

end Sys2Proof
end

