-- ==== Sys2Proof/Syntax.lean ====
section
/-! DEFINITION. The commands of the CX432: one constructor per row of `spec/opcode_table.json`.

A request row carries `sent`: the whole bytes of its transaction after the request code (R186: tag, length, arguments,
CRC, padding), so that framing, CRC, busy, duplicate and length are judged from bytes; and the pace at which the claims
it leads to are taken. -/

namespace Sys2Proof

/-- One command: a request frame, another transaction on the port, or an event of the part. -/
inductive Instr where
  /-- DEVICE_RESET (R6, R27, R85, R172): power-on, or RST becomes active. -/
  | deviceReset
  /-- OUTGOING_FRAME (R173): the falling edge of SEL; while a transaction is open, its end after no whole byte (R171,
  R174). -/
  | outgoingFrame
  /-- POLL (R175): a transaction whose first byte is 00h; `rest` follows it. -/
  | poll (rest : List Byte)
  /-- BREAK (R176): a transaction whose first eight bytes are FFh; `rest` follows them. -/
  | portBreak (rest : List Byte)
  /-- UNKNOWN_REQUEST (R180): a request frame whose code names no request. -/
  | unknownRequest (code : Byte) (rest : List Byte)
  /-- REQUEST_COMPLETION (R179). -/
  | requestCompletion
  /-- NOP, code 01h (R183). -/
  | nop (sent : Sent)
  /-- READ_STATUS, code 02h (R184). -/
  | readStatus (sent : Sent)
  /-- ACK_ATTENTION, code 03h (R139). -/
  | ackAttention (sent : Sent)
  /-- SET_ATTENTION_MASK, code 04h (R140). -/
  | setAttentionMask (sent : Sent)
  /-- CONFIG_AXIS, code 10h (R33); `lines` are the levels the lines of the axis named show at that moment (R34). -/
  | configAxis (sent : Sent) (lines : Lines)
  /-- RUN_AXIS, code 11h (R37). -/
  | runAxis (sent : Sent)
  /-- HALT_AXIS, code 12h (R38). -/
  | haltAxis (sent : Sent)
  /-- SET_POSITION, code 13h (R41). -/
  | setPosition (sent : Sent)
  /-- MOVE_AXIS, code 14h (R42). -/
  | moveAxis (sent : Sent)
  /-- SET_RATE, code 15h (R43). -/
  | setRate (sent : Sent)
  /-- READ_AXIS, code 16h (R44). -/
  | readAxis (sent : Sent)
  /-- CONFIG_OUTPUT, code 20h (R97). -/
  | configOutput (sent : Sent)
  /-- SET_OUTPUT_MODE, code 21h (R100). -/
  | setOutputMode (sent : Sent)
  /-- CLEAR_OUTPUT_FAULT, code 22h (R101). -/
  | clearOutputFault (sent : Sent)
  /-- READ_OUTPUT, code 23h (R102). -/
  | readOutput (sent : Sent)
  /-- PLACE, code 30h (R108). -/
  | place (sent : Sent)
  /-- ALTER, code 31h (R109). -/
  | alter (sent : Sent)
  /-- RETIRE, code 32h (R110). -/
  | retire (sent : Sent)
  /-- SET_LEAD, code 33h (R112). -/
  | setLead (sent : Sent)
  /-- CLOSE_LIST, code 34h (R116). -/
  | closeList (sent : Sent)
  /-- DISCARD, code 35h (R128). -/
  | discard (sent : Sent)
  /-- READ_PENDING, code 36h (R129). -/
  | readPending (sent : Sent)
  /-- READ_ENTRY, code 38h (R22). -/
  | readEntry (sent : Sent)
  /-- LIST_AXIS, code 39h (R24). -/
  | listAxis (sent : Sent)
  /-- READ_NOTIFY, code 40h (R133). -/
  | readNotify (sent : Sent)
  /-- ENTER_SAFE, code 50h (R147). -/
  | enterSafe (sent : Sent)
  /-- RELEASE_SAFE, code 51h (R149). -/
  | releaseSafe (sent : Sent)
  /-- READ_FAULT_REPORT, code 60h (R165). -/
  | readFaultReport (sent : Sent)
  /-- CLEAR_FAULT_REPORT, code 61h (R166). -/
  | clearFaultReport (sent : Sent)
  /-- TABLE_TEST, code 62h (R168). -/
  | tableTest (sent : Sent)
  /-- TABLE_TEST_VISIT (R168): the next visit of the running test; `passes` says whether every pattern reads back. -/
  | tableTestVisit (passes : Bool)
  /-- SPOIL_CHECK, code 63h (R167). -/
  | spoilCheck (sent : Sent)
  /-- ENCODER_COUNT (R46, R47): the pair (A, B) of an axis takes the sampled levels `a`, `b`, the changed ones
  after `samples` consecutive samples of the new level (R45). -/
  | encoderCount (axis : AxisId) (a b : Bool) (samples : Nat) (order : FaultOrder)
  /-- INDEX_EVENT (R52): Z of an axis rises, after `samples` consecutive high samples (R45). -/
  | indexEvent (axis : AxisId) (samples : Nat) (order : FaultOrder)
  /-- RATE_INTERVAL (R49): the end of a rate interval. `turns` is the order in which the axes take it; axes it does
  not name follow in ascending order. -/
  | rateInterval (turns : List (AxisId × FaultOrder))
  /-- AXIS_SILENT_END (R79): the channel of an axis takes a silent end that waits for it. -/
  | axisSilentEnd (axis : AxisId)
  /-- STEP (R58): the channel of an axis takes one count from the backlog; while a piece of its work is in progress, it
  goes on with that piece (log entry 13). -/
  | step (turn : ChannelTurn)
  /-- PULSE_EXPIRY (R81): the timer of a PULSE entry, `elapsed` whole microseconds after the fire that started it. -/
  | pulseExpiry (handle : Fin 512) (elapsed : Nat)
  /-- STOP_EVENT (R146): STOP has shown active for `samples` consecutive samples. -/
  | stopEvent (samples : Nat)
  /-- STOP_INACTIVE (R145): STOP has shown inactive for `samples` consecutive samples. -/
  | stopInactive (samples : Nat)
  /-- MEMORY_DISTURBANCE (R158) of the memory that holds a slot's record or check value. -/
  | memoryDisturbance (handle : Fin 512)
  /-- RECOGNIZED_LINE_CHANGE (R47, R48): the lines of an axis take the sampled levels `lines`, the changed ones after
  `samples` consecutive samples, and the change is neither a count nor an index event. -/
  | recognizedLineChange (axis : AxisId) (lines : Lines) (samples : Nat) (order : FaultOrder)
  /-- END_OF_RESET (R103, R156): RST is released; the levels the inputs show are loaded. -/
  | endOfReset (lines : Vector Lines 4) (stopActive : Bool)
  /-- PORT_SERVICE_DELAY_END (R185): 50 µs after the end of a reset. -/
  | portServiceDelayEnd
deriving DecidableEq, Repr

end Sys2Proof
end

