-- ==== Sys2Proof/Machine/State.lean ====
section
/-! DEFINITION. The state of the CX432 as plain data, the two reason types, and the state after a device reset. -/

namespace Sys2Proof.Machine

/-- No fault: the spec gives every command an effect, and the part never stops (INVENTORY, Faults). -/
inductive Fault where
deriving DecidableEq, Repr

/-- Why a command is turned away. -/
inductive Refusal where
  /-- Raised by `exec` alone, for a command that has no meaning yet (safe: nothing is claimed of it). -/
  | notModelled (mnemonic : String)
deriving DecidableEq, Repr

/-! ### Entries and slots (chapter 1) -/

/-- The six lifecycle states of a slot (R1, R2). -/
inductive Lifecycle where
  | free | staged | live | unread | fenced | disabled
deriving DecidableEq, Repr

/-- The four kinds of entry (R8). -/
inductive Kind where
  | window | pulse | toggle | mark
deriving DecidableEq, Repr

/-- The direction qualifier (R10). -/
inductive Qualifier where
  | forward | reverse | either
deriving DecidableEq, Repr

/-- The direction a fire records (R14). -/
inductive FireDir where
  | forward | reverse | none
deriving DecidableEq, Repr

/-- What an entry does there, with the fields its kind carries (R8). -/
inductive Action where
  | window (output : OutId) (off : Nat)
  | pulse (output : OutId) (duration : Nat) (qualifier : Qualifier)
  | toggle (output : OutId) (qualifier : Qualifier)
  | mark (qualifier : Qualifier)
deriving DecidableEq, Repr

/-- The stored record of an entry, less its handle (R157). -/
structure Entry where
  axis : AxisId
  on : Nat
  action : Action
  oncePerRev : Bool
  notify : Bool
  label : BitVec 16
deriving DecidableEq, Repr

/-- The last fire field (R14). -/
structure LastFire where
  revolution : BitVec 16
  direction : FireDir
deriving DecidableEq, Repr

/-- The run-time fields that outlast a fence and a retirement (R17). -/
structure FireLog where
  passCount : BitVec 16
  lastFire : Option LastFire
  notifyPending : Bool
  missed : Nat
deriving DecidableEq, Repr

/-- The activity of a LIVE entry (R13). An ACTIVE PULSE carries its running timer, the duration in microseconds
the timer was started with (R80); an ACTIVE WINDOW carries none. -/
inductive Activity where
  | idle
  | active (timer : Option Nat)
deriving DecidableEq, Repr

/-- The run-time fields of a LIVE entry (R17). -/
structure Run where
  activity : Activity
  spent : Bool
  log : FireLog
deriving DecidableEq, Repr

/-- One slot of the Switch-Point Table with the fields R17 gives it in its state. `consistent` is the state of
its check value (R157). -/
inductive Slot where
  | free
  | disabled
  | staged (entry : Entry) (consistent : Bool)
  | live (entry : Entry) (consistent : Bool) (run : Run)
  | fenced (entry : Entry) (consistent : Bool) (log : FireLog)
  | unread (entry : Entry) (consistent : Bool) (log : FireLog)
deriving DecidableEq, Repr

/-! ### Axis records (chapter 2) -/

/-- The axis states (R30). -/
inductive AxisState where
  | off | halted | running | halting | faulted
deriving DecidableEq, Repr

/-- The position sources (R27). -/
inductive Source where
  | encoder | rate | stepped
deriving DecidableEq, Repr

/-- Whether an axis fault also puts the device into SAFE (R27). -/
inductive FaultAction where
  | passive | safe
deriving DecidableEq, Repr

/-- The kinds of axis fault (R55). -/
inductive AxisFault where
  | illegalTransition | indexMismatch | countOverrun
deriving DecidableEq, Repr

/-- One axis record (R27), the recognized levels of its lines (R45), and the silent end that waits for its
channel (R57, R79). -/
structure Axis where
  state : AxisState
  source : Source
  modulus : Nat
  position : Nat
  revolution : BitVec 16
  referenced : Bool
  indexPoint : Option Nat
  tolerance : Byte
  invert : Bool
  filter : Byte
  faultAction : FaultAction
  rate : Int
  remainder : Int
  backlog : Int
  corrections : Nat
  lastFault : Option AxisFault
  lines : Lines
  silentDue : Bool
deriving DecidableEq, Repr

/-! ### Output records (chapter 4) -/

/-- How the computed level is formed (R87). -/
inductive DriveType where
  | level | toggle
deriving DecidableEq, Repr

/-- How an active or passive level maps onto the pin (R90). -/
inductive Polarity where
  | activeHigh | activeLow
deriving DecidableEq, Repr

/-- What the pin shows under a hold or in ISOLATED (R91). -/
inductive SafeLevel where
  | low | high | hold
deriving DecidableEq, Repr

/-- What the pin shows when no hold is set (R92). -/
inductive Mode where
  | follow | forceActive | forcePassive | isolated
deriving DecidableEq, Repr

/-- One output record (R85). `toggleInitial` and `latch` are `true` for active, `held` is `true` for HIGH. -/
structure Output where
  binding : Option AxisId
  drive : DriveType
  polarity : Polarity
  safeLevel : SafeLevel
  toggleInitial : Bool
  mode : Mode
  lead : Int
  windowCount : Nat
  pulseCount : Nat
  latch : Bool
  safeHold : Bool
  faultHold : Bool
  held : Bool
deriving DecidableEq, Repr

/-! ### Pending lists (chapter 5) -/

/-- The seven alterable values of an ALTER, each given or absent (R105). -/
structure AlterValues where
  on : Option Nat
  off : Option Nat
  duration : Option Nat
  qualifier : Option Qualifier
  oncePerRev : Option Bool
  notify : Option Bool
  label : Option (BitVec 16)
deriving DecidableEq, Repr

/-- One item of a pending list (R105). -/
inductive Item where
  | place (handle : Nat)
  | alter (handle : Nat) (values : AlterValues)
  | retire (handle : Nat)
  | setLead (output : OutId) (lead : Int)
deriving DecidableEq, Repr

/-- One pending list (R104). -/
structure PendingList where
  items : List Item
  closed : Bool
  change : Byte
deriving DecidableEq, Repr

/-! ### Attention, the fault report and the safe state (chapters 6 to 8) -/

/-- A set of attention reasons, one bit each as R188 numbers them: NOTIFY 0, FAULT 1, SAFE_ENTERED 2,
SAFE_RELEASED 3, AXIS_CHANGED 4, BATCH_APPLIED 5, REQUEST_DONE 6. -/
abbrev ReasonSet := BitVec 7

/-- What a reported fault was, with the fields its kind alone fills (R164). -/
inductive FaultCause where
  | entryCheck (handle : Nat)
  | illegalTransition
  | indexMismatch (deviation : Int)
  | countOverrun
deriving DecidableEq, Repr

/-- A valid fault report (R163). -/
structure Report where
  cause : FaultCause
  axis : AxisId
  position : Nat
  revolution : BitVec 16
  further : Nat
deriving DecidableEq, Repr

/-- The device condition (R144). -/
inductive Condition where
  | normal | safe | releasing
deriving DecidableEq, Repr

/-! ### The claims of the channels and of the requests (chapters 3, 8, 9) -/

/-- A claim of an evaluation channel's work, or a part of the work that comes about as several claims (R57, R58). -/
inductive Task where
  /-- the handing of a fired handle to the Notify Unit (R72, R131) -/
  | hand (handle : Nat)
  /-- claim 2 of the fence of an entry: its output (R160) -/
  | fenceOutput (handle : Nat) (output : OutId) (kind : Kind) (wasActive : Bool)
  /-- claim 3 of the fence of an entry: the fault report (R160, R164) -/
  | fenceReport (handle : Nat) (axis : AxisId) (position : Nat) (revolution : BitVec 16)
  /-- part 3 of a step for one entry (R63) -/
  | cross (handle : Nat) (direction : FireDir)
  /-- part 4 of a step for one WINDOW (R68) -/
  | boundary (handle : Nat) (point : Nat) (direction : FireDir)
  /-- step 1 of a jump for one WINDOW (R76) -/
  | jumpDrop (handle : Nat)
  /-- the settle of one entry (R73) -/
  | settle (handle : Nat)
  /-- step 2 of a jump for one WINDOW: its settle, which the read of step 1 serves (R76, R83) -/
  | jumpSettle (handle : Nat)
  /-- the application of the closed list, with BATCH_APPLIED where `announced` (R119, R120) -/
  | application (announced : Bool)
  /-- the release of the waiting outputs of the axis (R60, R39) -/
  | release
  /-- part 2 of a step (R62) -/
  | advance
  /-- part 3 of a step (R63) -/
  | crossings (point : Nat) (direction : FireDir)
  /-- part 4 of a step (R68) -/
  | boundaries (point : Nat) (direction : FireDir)
  /-- the settle of the entries applied by a list that held `items` (R60, R74, R125) -/
  | settleApplied (items : List Item)
  /-- the silent end of all entries of the axis (R55, R79) -/
  | silentEnd
  /-- the end of a step: a HALTING axis with no count left becomes HALTED (R39) -/
  | haltIfDone
  /-- the HALT_AXIS that waits for the axis has its outcome (R39) -/
  | haltReached
  /-- the end of the work that the executing request has asked of the channel (R117, R181) -/
  | served
deriving DecidableEq, Repr

/-! ### The request port (chapter 9) -/

/-- The status values (R182). -/
inductive Status where
  | done | none | inProgress | unknownRequest | badLength | badValue | wrongState | noSlot | noSuchEntry
  | mismatch | spansWrap | listFull | listSealed | entryRetiring | hasDependents | nothingPending | fenced
  | stopActive | backlogFull
deriving DecidableEq, Repr

/-- A stored response (R172). -/
structure Response where
  tag : Byte
  status : Status
  payload : List Byte
deriving DecidableEq, Repr

/-- What the claim of a completion does besides answering (R139, R140). -/
inductive CompletionEffect where
  | nothing
  | acknowledge (reasons : ReasonSet)
  | setMask (reasons : ReasonSet)
deriving DecidableEq, Repr

/-- A TABLE_TEST in progress: the slots still to visit and the counts so far (R168, R170). -/
structure TestRun where
  remaining : List Nat
  visited : Nat
  disabled : Nat
  restored : Nat
deriving DecidableEq, Repr

/-- What the executing request does once the claims it waits for are taken. -/
inductive Next where
  /-- its block has returned a status and a payload -/
  | reply (status : Status) (payload : List Byte)
  /-- RETIRE goes on as a RETIRE of the FENCED entry (R107, R111) -/
  | retire (handle : Nat)
  /-- the list that the request has closed, which held `items`, has been applied: its applied entries are settled, and the
  list answer follows (R117). It gives `handle` as it stands, and the state of its slot where `retired` (R115). -/
  | closed (axis : AxisId) (items : List Item) (handle : Nat) (retired : Bool)
deriving DecidableEq, Repr

/-- How far the executing request is (R180, R181). `stops` are the points before which its work stops (log entry 13). -/
inductive Work where
  /-- accepted, and its block has not worked yet: the arguments, the levels a CONFIG_AXIS will find, and the pace (log
  entry 13) -/
  | waiting (args : List Byte) (lines : Lines) (pace : Pace)
  /-- its block has returned a status and a payload; the completion is still to come -/
  | ready (status : Status) (payload : List Byte) (effect : CompletionEffect)
  /-- HALT_AXIS of an axis that is still stepping its backlog (R38) -/
  | halting (axis : AxisId)
  /-- TABLE_TEST between two visits (R169) -/
  | testing (run : TestRun)
  /-- between the claims of the fences that its reads have provoked (R160, R161) -/
  | claiming (rest : List Task) (next : Next) (stops : List StopPoint)
  /-- a channel does work that it has asked for (R77, R117, R181) -/
  | channel (axis : AxisId) (next : Next) (stops : List StopPoint)
  /-- between the items of its response: those it is made of, those still to take, and those taken (R184, R102) -/
  | sampling (asked rest : List ReadItem) (taken : List (ReadItem × List Byte)) (stops : List StopPoint)
deriving DecidableEq, Repr

/-- The executing request (R172). -/
structure Executing where
  code : Byte
  tag : Byte
  work : Work
deriving DecidableEq, Repr

/-- The port state, with the executing request where there is one (R172). -/
inductive PortState where
  | idle
  | executing (request : Executing)
  | draining (request : Executing)
deriving DecidableEq, Repr

/-- The rejected set (R172). -/
structure Rejected where
  framing : Bool
  crc : Bool
  busy : Bool
deriving DecidableEq, Repr

/-- The port record (R172). -/
structure Port where
  state : PortState
  slot : Option Response
  lastTag : Option Byte
  rejected : Rejected
deriving DecidableEq, Repr

/-- The transaction on the port (R171): none, one that the port serves with the outgoing frame it chose, or one
whose SEL fell before the port serves transactions (R185). -/
inductive Transaction where
  | closed
  | served (frame : List Byte)
  | unserved
deriving DecidableEq, Repr

/-- How far the part is out of a device reset (R103, R185): RST asserted, the 50 µs after it, or past them. -/
inductive ResetPhase where
  | held | delay | serving
deriving DecidableEq, Repr

/-! ### The evaluation channels (chapter 3) -/

/-- One evaluation channel (R57): what is left of the piece of work in progress, and the outputs whose toggle latch the
step in progress has inverted (R65). -/
structure Channel where
  rest : List Task
  inverted : List OutId
deriving DecidableEq, Repr

/-- A channel with no work in progress. -/
def Channel.quiet : Channel := ⟨[], []⟩

/-! ### The whole part -/

/-- The state of the CX432. `table` lists (handle, slot), handles strictly rising and no FREE slot listed; a
handle it does not list is FREE. `channels` are the evaluation channels with their work in progress (R57). `stops` is the
command's choice of the claims before which a channel's work stops, and is empty between commands (log entry 13). -/
structure State where
  phase : ResetPhase
  port : Port
  transaction : Transaction
  condition : Condition
  stopActive : Bool
  latched : ReasonSet
  mask : ReasonSet
  table : List (Nat × Slot)
  axes : Vector Axis 4
  lists : Vector PendingList 4
  outputs : Vector Output 32
  report : Option Report
  channels : Vector Channel 4
  stops : List StopPoint
  pending : List Instr
deriving DecidableEq, Repr

/-- An axis record after device reset (R27). The line levels stand until END_OF_RESET loads them (log entry 7). -/
def Axis.reset : Axis where
  state := .off
  source := .encoder
  modulus := 3600
  position := 0
  revolution := 0#16
  referenced := false
  indexPoint := none
  tolerance := 4#8
  invert := false
  filter := 10#8
  faultAction := .safe
  rate := 0
  remainder := 0
  backlog := 0
  corrections := 0
  lastFault := none
  lines := ⟨false, false, false⟩
  silentDue := false

/-- An output record after device reset (R85). -/
def Output.reset : Output where
  binding := none
  drive := .level
  polarity := .activeHigh
  safeLevel := .low
  toggleInitial := false
  mode := .follow
  lead := 0
  windowCount := 0
  pulseCount := 0
  latch := false
  safeHold := true
  faultHold := false
  held := false

/-- A pending list after device reset (R104). -/
def PendingList.reset : PendingList := ⟨[], false, 0#8⟩

/-- The port record after device reset (R172). -/
def Port.reset : Port := ⟨.idle, none, none, ⟨false, false, false⟩⟩

/-- The mask after device reset: every reason except REQUEST_DONE (R138). -/
def resetMask : ReasonSet := 0b0111111#7

/-- The part in device reset: every block at its reset values (R6, R27, R57, R85, R104, R130, R138, R144, R163,
R172), RST still asserted (log entry 7), no command waiting. -/
def State.reset : State where
  phase := .held
  port := Port.reset
  transaction := .closed
  condition := .safe
  stopActive := false
  latched := 0#7
  mask := resetMask
  table := []
  axes := Vector.replicate 4 Axis.reset
  lists := Vector.replicate 4 PendingList.reset
  outputs := Vector.replicate 32 Output.reset
  report := none
  channels := Vector.replicate 4 Channel.quiet
  stops := []
  pending := []

end Sys2Proof.Machine
end

