-- ==== Sys2Proof/Machine/Ops.lean ====
section
/-! DEFINITION. The shared operations on the records of State: slots, axes, outputs and lists, effective points,
windows, the order of an axis, and the pin level of an output. Every other file reads and writes State through
these. -/

namespace Sys2Proof.Machine

/-! ### The slot table -/

/-- The slot a table lists for a handle; FREE where it lists none. -/
def Table.get : List (Nat × Slot) → Nat → Slot
  | [], _ => .free
  | (k, v) :: rest, h => if k = h then v else Table.get rest h

/-- The table with a listed slot put at its place in handle order. -/
def Table.insert : List (Nat × Slot) → Nat → Slot → List (Nat × Slot)
  | [], h, v => [(h, v)]
  | (k, w) :: rest, h, v =>
    if h < k then (h, v) :: (k, w) :: rest
    else if h = k then (h, v) :: rest
    else (k, w) :: Table.insert rest h v

/-- The table with a handle no longer listed. -/
def Table.erase (t : List (Nat × Slot)) (h : Nat) : List (Nat × Slot) :=
  t.filter (fun cell => cell.1 != h)

/-- A write of a slot keeps the canonical form: a FREE slot is not listed. -/
def Table.set (t : List (Nat × Slot)) (h : Nat) (v : Slot) : List (Nat × Slot) :=
  if v = .free then Table.erase t h else Table.insert t h v

/-- The canonical form: handles below 512 and strictly rising, no FREE slot listed. -/
def Table.wf (t : List (Nat × Slot)) : Bool :=
  decide (t.Pairwise (fun x y => x.1 < y.1)) && t.all (fun cell => cell.1 < Config.slotCount && cell.2 != .free)

/-- The handles 0 to 511 in ascending order (R1). -/
def handles : List Nat := List.range Config.slotCount

/-- The slot of a handle. -/
def State.slot (s : State) (h : Nat) : Slot := Table.get s.table h

/-- The state with one slot written. -/
def State.setSlot (s : State) (h : Nat) (v : Slot) : State := { s with table := Table.set s.table h v }

/-- The lifecycle state of a slot (R1). -/
def Slot.lifecycle : Slot → Lifecycle
  | .free => .free
  | .disabled => .disabled
  | .staged _ _ => .staged
  | .live _ _ _ => .live
  | .fenced _ _ _ => .fenced
  | .unread _ _ _ => .unread

/-- The entry a slot holds (R2). -/
def Slot.entry? : Slot → Option Entry
  | .free | .disabled => none
  | .staged e _ | .live e _ _ | .fenced e _ _ | .unread e _ _ => some e

/-- The pass count, last fire, notify pending and missed count a slot carries (R17). -/
def Slot.log? : Slot → Option FireLog
  | .free | .disabled | .staged _ _ => none
  | .live _ _ r => some r.log
  | .fenced _ _ l | .unread _ _ l => some l

/-- Whether a LIVE entry is ACTIVE (R13); no other slot is. -/
def Slot.isActive : Slot → Bool
  | .live _ _ r => r.activity != .idle
  | _ => false

/-- Whether a slot is STAGED, LIVE or FENCED with an entry that satisfies `p`: the dependents of R97 and R102. -/
def Slot.inService (p : Entry → Bool) : Slot → Bool
  | .staged e _ | .live e _ _ | .fenced e _ _ => p e
  | _ => false

/-- The number of slots in a lifecycle state (R1, R184). -/
def State.countIn (s : State) (l : Lifecycle) : Nat :=
  handles.countP (fun h => (s.slot h).lifecycle == l)

/-- The lowest-numbered FREE slot (R4). -/
def State.lowestFree (s : State) : Option Nat :=
  handles.find? (fun h => s.slot h == .free)

/-- The run-time fields that the application of a PLACE item writes (R18). -/
def FireLog.fresh : FireLog := ⟨0#16, none, false, 0⟩

/-- IDLE, not spent, never fired (R18). -/
def Run.fresh : Run := ⟨.idle, false, FireLog.fresh⟩

/-! ### The fields of an entry -/

/-- The kind of an entry (R8). -/
def Entry.kind (e : Entry) : Kind :=
  match e.action with
  | .window _ _ => .window
  | .pulse _ _ _ => .pulse
  | .toggle _ _ => .toggle
  | .mark _ => .mark

/-- The output of an entry; a MARK has none (R7). -/
def Entry.output (e : Entry) : Option OutId :=
  match e.action with
  | .window o _ => some o
  | .pulse o _ _ => some o
  | .toggle o _ => some o
  | .mark _ => none

/-- The off point of a WINDOW (R8). -/
def Entry.off? (e : Entry) : Option Nat :=
  match e.action with
  | .window _ off => some off
  | _ => none

/-- The pulse duration of a PULSE (R8). -/
def Entry.duration? (e : Entry) : Option Nat :=
  match e.action with
  | .pulse _ d _ => some d
  | _ => none

/-- The direction qualifier of a PULSE, TOGGLE or MARK (R8). -/
def Entry.qualifier? (e : Entry) : Option Qualifier :=
  match e.action with
  | .window _ _ => none
  | .pulse _ _ q => some q
  | .toggle _ q => some q
  | .mark q => some q

/-- Whether an entry targets an output. -/
def Entry.targets (o : OutId) (e : Entry) : Bool := e.output == some o

/-! ### Axes, outputs and lists -/

/-- The record of an axis (R27). -/
def State.axis (s : State) (a : AxisId) : Axis := s.axes[a]

/-- The state with one axis record replaced. -/
def State.setAxis (s : State) (a : AxisId) (x : Axis) : State := { s with axes := s.axes.set a x }

/-- The record of an output (R85). -/
def State.output (s : State) (o : OutId) : Output := s.outputs[o]

/-- The state with one output record replaced. -/
def State.setOutput (s : State) (o : OutId) (x : Output) : State := { s with outputs := s.outputs.set o x }

/-- The pending list of an axis (R104). -/
def State.list (s : State) (a : AxisId) : PendingList := s.lists[a]

/-- The state with one pending list replaced. -/
def State.setList (s : State) (a : AxisId) (x : PendingList) : State := { s with lists := s.lists.set a x }

/-- The evaluation channel of an axis (R57). -/
def State.channel (s : State) (a : AxisId) : Channel := s.channels[a]

/-- The state with one channel replaced. -/
def State.setChannel (s : State) (a : AxisId) (c : Channel) : State := { s with channels := s.channels.set a c }

/-- The 32 outputs in ascending order. -/
def outIds : List OutId := List.finRange 32

/-- The four axes in ascending order. -/
def axisIds : List AxisId := List.finRange 4

/-- A position plus or minus counts, modulo a modulus (conventions 6.1). -/
def wrapTo (modulus : Nat) (p : Int) : Nat := (p % (modulus : Int)).toNat

/-- The tracked position of an axis (R28). -/
def Axis.tracked (x : Axis) : Nat := wrapTo x.modulus ((x.position : Int) + x.backlog)

/-- RUNNING or HALTING: the states in which the backlog is stepped (R30, R51). -/
def Axis.stepping (x : Axis) : Bool := x.state == .running || x.state == .halting

/-- RUNNING with source ENCODER: the states in which recognized changes count (R46, R52). -/
def Axis.countsEncoder (x : Axis) : Bool := x.state == .running && x.source == .encoder

/-! ### Items -/

/-- The handle an item names (R105). -/
def Item.handle? : Item → Option Nat
  | .place h | .alter h _ | .retire h => some h
  | .setLead _ _ => none

/-- Whether an item names a handle. -/
def Item.names (h : Nat) (i : Item) : Bool := i.handle? == some h

/-- Whether an item is a SET_LEAD for an output. -/
def Item.leads (o : OutId) : Item → Bool
  | .setLead o' _ => o' == o
  | _ => false

/-- The item of a list that names a handle (R16, R105). -/
def PendingList.itemOf (l : PendingList) (h : Nat) : Option Item := l.items.find? (Item.names h)

/-- The lead a list will give an output, if it holds a SET_LEAD for it (R19). -/
def PendingList.leadOf (l : PendingList) (o : OutId) : Option Int :=
  l.items.findSome? (fun i => match i with | .setLead o' v => if o' = o then some v else none | _ => none)

/-- The item that names the entry of a handle, in the list of the entry's axis (R16, R105). -/
def State.itemOf (s : State) (h : Nat) : Option Item :=
  match s.slot h with
  | .staged e _ | .live e _ _ => (s.list e.axis).itemOf h
  | _ => none

/-! ### Effective points, windows and the order of an axis -/

/-- The effective point of a stored point under a lead (R19). -/
def effectivePoint (modulus : Nat) (lead : Int) (p : Nat) : Nat := wrapTo modulus ((p : Int) - lead)

/-- The present lead of an entry's output; 0 for a MARK (R19). -/
def State.leadFor (s : State) (e : Entry) : Int :=
  match e.output with
  | some o => (s.output o).lead
  | none => 0

/-- The effective point of a stored point of an entry, under the present lead (R19). -/
def State.effective (s : State) (e : Entry) (p : Nat) : Nat :=
  effectivePoint (s.axis e.axis).modulus (s.leadFor e) p

/-- The effective on point of an entry (R19). -/
def State.effOn (s : State) (e : Entry) : Nat := s.effective e e.on

/-- The effective off point of a WINDOW (R19). -/
def State.effOff (s : State) (e : Entry) : Option Nat := e.off?.map (s.effective e)

/-- Whether the window [on, off) contains a position (conventions 6.2). -/
def windowContains (on off p : Nat) : Bool :=
  if on < off then decide (on ≤ p) && decide (p < off)
  else if off < on then decide (on ≤ p) || decide (p < off)
  else false

/-- Whether the window [on, off) spans the wrap point (R20). -/
def spansWrap (on off : Nat) : Bool := decide (off < on) && off != 0

/-- Whether a WINDOW entry contains the present position of its axis, on effective points (R73). -/
def State.inWindow (s : State) (e : Entry) (off : Nat) : Bool :=
  windowContains (s.effOn e) (s.effective e off) (s.axis e.axis).position

/-- The first part of the order key of a slot (R21); 0 for a slot that holds no entry. -/
def State.keyPoint (s : State) (h : Nat) : Nat :=
  match (s.slot h).entry? with
  | some e => s.effOn e
  | none => 0

/-- Order keys, compared first by effective on point and then by handle (R21, R24). -/
abbrev keyLE (a b : Nat × Nat) : Prop := a.1 < b.1 ∨ (a.1 = b.1 ∧ a.2 ≤ b.2)

/-- The order key of a handle (R21). -/
def State.key (s : State) (h : Nat) : Nat × Nat := (s.keyPoint h, h)

/-- Whether a slot stands in the order of an axis: LIVE or FENCED there (R21). -/
def Slot.ordered (a : AxisId) : Slot → Bool
  | .live e _ _ | .fenced e _ _ => e.axis == a
  | _ => false

/-- The order of an axis: its LIVE and FENCED entries by ascending order key (R21). -/
def State.order (s : State) (a : AxisId) : List Nat :=
  (handles.filter (fun h => (s.slot h).ordered a)).insertionSort (fun x y => keyLE (s.key x) (s.key y))

/-- Whether a slot is LIVE with an entry that satisfies `p`. -/
def Slot.liveWith (p : Entry → Bool) : Slot → Bool
  | .live e _ _ => p e
  | _ => false

/-- The LIVE entries of an axis that satisfy `p`, in the order of the axis (R21). -/
def State.liveInOrder (s : State) (a : AxisId) (p : Entry → Bool) : List Nat :=
  (s.order a).filter (fun h => (s.slot h).liveWith p)

/-- The LIVE entries of an axis, by handle. -/
def State.liveOf (s : State) (a : AxisId) : List Nat :=
  handles.filter (fun h => (s.slot h).liveWith (fun e => e.axis == a))

/-- The LIVE entries that target an output, by handle. -/
def State.liveOn (s : State) (o : OutId) : List Nat :=
  handles.filter (fun h => (s.slot h).liveWith (Entry.targets o))

/-! ### The pin level (chapter 4) -/

/-- The computed level: active or passive (R87). -/
def Output.computed (x : Output) : Bool :=
  match x.drive with
  | .level => decide (0 < x.windowCount + x.pulseCount)
  | .toggle => x.latch

/-- A level mapped onto the pin by polarity (R90). -/
def Polarity.pin : Polarity → Bool → Bool
  | .activeHigh, active => active
  | .activeLow, active => !active

/-- The safe level as a pin level; HOLD shows the held level (R91). -/
def Output.safePin (x : Output) : Bool :=
  match x.safeLevel with
  | .low => false
  | .high => true
  | .hold => x.held

/-- Whether an output has the safe hold or the fault hold. -/
def Output.isHeld (x : Output) : Bool := x.safeHold || x.faultHold

/-- The pin level composed from an output record (R91). -/
def Output.pin (x : Output) : Bool :=
  if x.isHeld then x.safePin
  else match x.mode with
    | .isolated => x.safePin
    | .forceActive => x.polarity.pin true
    | .forcePassive => x.polarity.pin false
    | .follow => x.polarity.pin x.computed

/-- The level driven on an output line: LOW while RST is asserted, else the composed level (R91, R103). -/
def State.pinLevel (s : State) (o : OutId) : Bool :=
  s.phase != .held && (s.output o).pin

/-- The held level takes the present pin level when the first hold begins (R95). -/
def Output.capture (x : Output) : Output := if x.isHeld then x else { x with held := x.pin }

/-- The safe hold is set; an output that already has it is left as it is (R93, R146). -/
def Output.setSafeHold (x : Output) : Output :=
  if x.safeHold then x else { x.capture with safeHold := true }

/-- One more ACTIVE entry of a kind (R88). -/
def Output.countUp (x : Output) : Kind → Output
  | .window => { x with windowCount := x.windowCount + 1 }
  | .pulse => { x with pulseCount := x.pulseCount + 1 }
  | .toggle | .mark => x

/-- One ACTIVE entry of a kind fewer (R88). -/
def Output.countDown (x : Output) : Kind → Output
  | .window => { x with windowCount := x.windowCount - 1 }
  | .pulse => { x with pulseCount := x.pulseCount - 1 }
  | .toggle | .mark => x

/-- The count of an entry's output goes up by one (R88). -/
def State.countUpFor (s : State) (e : Entry) : State :=
  match e.output with
  | some o => s.setOutput o ((s.output o).countUp e.kind)
  | none => s

/-- The count of an entry's output goes down by one (R88). -/
def State.countDownFor (s : State) (e : Entry) : State :=
  match e.output with
  | some o => s.setOutput o ((s.output o).countDown e.kind)
  | none => s

/-- An ACTIVE entry becomes IDLE and leaves the count of its output: the common effect of a window left (R70), a
pulse expiry (R81) and a silent end (R78). A timer that runs is gone with the activity. -/
def State.endActivity (s : State) (h : Nat) : State :=
  match s.slot h with
  | .live e ok r =>
    match r.activity with
    | .idle => s
    | .active _ => (s.setSlot h (.live e ok { r with activity := .idle })).countDownFor e
  | _ => s

/-- Activity ends silently for every LIVE entry of an axis, as one piece of its channel's work (R79). A silent
end that waited for the channel is taken with it. -/
def State.silenceAxis (s : State) (a : AxisId) : State :=
  let ended := (s.liveOf a).foldl State.endActivity s
  ended.setAxis a { ended.axis a with silentDue := false }

end Sys2Proof.Machine
end

