-- ==== Sys2Proof/Machine/Operands.lean ====
section
/-! DEFINITION. What crosses the port (chapter 10): field encodings, the CRC, the request codes with their
argument lengths, request and outgoing frames, and the decoding of the arguments of every request. A decoding
answers none where R187 has the request refused with BAD_VALUE. -/

namespace Sys2Proof.Machine

/-! ### Numbers, most significant byte first (R190) -/

/-- A natural number as `n` bytes, most significant first. -/
def bytesOf : Nat → Nat → List Byte
  | 0, _ => []
  | n + 1, v => BitVec.ofNat 8 (v / 256 ^ n) :: bytesOf n v

/-- A signed number as `n` bytes in two's complement, most significant first. -/
def signedBytesOf (n : Nat) (v : Int) : List Byte := bytesOf n (v % ((256 ^ n : Nat) : Int)).toNat

/-- The number that bytes spell, most significant first. -/
def natOf (bs : List Byte) : Nat := bs.foldl (fun acc b => acc * 256 + b.toNat) 0

/-- The signed number that bytes spell in two's complement, most significant first. -/
def intOf (bs : List Byte) : Int :=
  let v := natOf bs
  if 2 * v < 256 ^ bs.length then (v : Int) else (v : Int) - ((256 ^ bs.length : Nat) : Int)

/-- A number as one byte. -/
def byteOf (v : Nat) : Byte := BitVec.ofNat 8 v

/-- A yes/no field. -/
def boolByte (b : Bool) : Byte := if b then 1#8 else 0#8

/-- The field of `n` bytes at an offset of an argument area. -/
def fieldAt (bs : List Byte) (offset n : Nat) : List Byte := (bs.drop offset).take n

/-- The number in the field at an offset. -/
def natAt (bs : List Byte) (offset n : Nat) : Nat := natOf (fieldAt bs offset n)

/-- The signed number in the field at an offset. -/
def intAt (bs : List Byte) (offset n : Nat) : Int := intOf (fieldAt bs offset n)

/-! ### Enumerated fields (R190) -/

/-- The code of a lifecycle state. -/
def Lifecycle.code : Lifecycle → Byte
  | .free => 0#8 | .staged => 1#8 | .live => 2#8 | .unread => 3#8 | .fenced => 4#8 | .disabled => 5#8

/-- The code of a kind. -/
def Kind.code : Kind → Byte
  | .window => 0#8 | .pulse => 1#8 | .toggle => 2#8 | .mark => 3#8

/-- The kind of a code. -/
def kindOf : Nat → Option Kind
  | 0 => some .window | 1 => some .pulse | 2 => some .toggle | 3 => some .mark | _ => none

/-- The code of a direction qualifier. -/
def Qualifier.code : Qualifier → Byte
  | .forward => 0#8 | .reverse => 1#8 | .either => 2#8

/-- The direction qualifier of a code. -/
def qualifierOf : Nat → Option Qualifier
  | 0 => some .forward | 1 => some .reverse | 2 => some .either | _ => none

/-- The code of a fire direction. -/
def FireDir.code : FireDir → Byte
  | .forward => 0#8 | .reverse => 1#8 | .none => 2#8

/-- The code of a pending item: none, or the kind of the item (R16). -/
def itemCode : Option Item → Byte
  | none => 0#8
  | some (.place _) => 1#8
  | some (.alter _ _) => 2#8
  | some (.retire _) => 3#8
  | some (.setLead _ _) => 4#8

/-- The code of an axis state. -/
def AxisState.code : AxisState → Byte
  | .off => 0#8 | .halted => 1#8 | .running => 2#8 | .halting => 3#8 | .faulted => 4#8

/-- The code of a source. -/
def Source.code : Source → Byte
  | .encoder => 0#8 | .rate => 1#8 | .stepped => 2#8

/-- The source of a code. -/
def sourceOf : Nat → Option Source
  | 0 => some .encoder | 1 => some .rate | 2 => some .stepped | _ => none

/-- The code of a fault action. -/
def FaultAction.code : FaultAction → Byte
  | .passive => 0#8 | .safe => 1#8

/-- The fault action of a code. -/
def faultActionOf : Nat → Option FaultAction
  | 0 => some .passive | 1 => some .safe | _ => none

/-- The code of a last fault. -/
def lastFaultCode : Option AxisFault → Byte
  | none => 0#8
  | some .illegalTransition => 2#8
  | some .indexMismatch => 3#8
  | some .countOverrun => 4#8

/-- The code of a reported fault. -/
def FaultCause.code : FaultCause → Byte
  | .entryCheck _ => 1#8 | .illegalTransition => 2#8 | .indexMismatch _ => 3#8 | .countOverrun => 4#8

/-- The code of a drive type. -/
def DriveType.code : DriveType → Byte
  | .level => 0#8 | .toggle => 1#8

/-- The drive type of a code. -/
def driveOf : Nat → Option DriveType
  | 0 => some .level | 1 => some .toggle | _ => none

/-- The code of a polarity. -/
def Polarity.code : Polarity → Byte
  | .activeHigh => 0#8 | .activeLow => 1#8

/-- The polarity of a code. -/
def polarityOf : Nat → Option Polarity
  | 0 => some .activeHigh | 1 => some .activeLow | _ => none

/-- The code of a safe level. -/
def SafeLevel.code : SafeLevel → Byte
  | .low => 0#8 | .high => 1#8 | .hold => 2#8

/-- The safe level of a code. -/
def safeLevelOf : Nat → Option SafeLevel
  | 0 => some .low | 1 => some .high | 2 => some .hold | _ => none

/-- The code of a mode. -/
def Mode.code : Mode → Byte
  | .follow => 0#8 | .forceActive => 1#8 | .forcePassive => 2#8 | .isolated => 3#8

/-- The mode of a code. -/
def modeOf : Nat → Option Mode
  | 0 => some .follow | 1 => some .forceActive | 2 => some .forcePassive | 3 => some .isolated | _ => none

/-- The code of a device condition. -/
def Condition.code : Condition → Byte
  | .normal => 0#8 | .safe => 1#8 | .releasing => 2#8

/-- A yes/no field's value; also a level's, passive or active. -/
def boolOf : Nat → Option Bool
  | 0 => some false | 1 => some true | _ => none

/-- An axis number. -/
def axisOf (v : Nat) : Option AxisId := if h : v < 4 then some ⟨v, h⟩ else none

/-- An output number. -/
def outputOf (v : Nat) : Option OutId := if h : v < 32 then some ⟨v, h⟩ else none

/-- A binding: an axis number, or FFh for none. -/
def bindingOf (v : Nat) : Option (Option AxisId) := if v = 255 then some none else (axisOf v).map some

/-- A handle, 0 to 511. -/
def handleOf (v : Nat) : Option Nat := if v < Config.slotCount then some v else none

/-- An attention set: bit 7 is 0. -/
def reasonsOf (v : Nat) : Option ReasonSet := if v < 128 then some (BitVec.ofNat 7 v) else none

/-- A number within a range. -/
def withinNat (lo hi v : Nat) : Option Nat := if lo ≤ v ∧ v ≤ hi then some v else none

/-- A signed number within a range. -/
def withinInt (lo hi v : Int) : Option Int := if lo ≤ v ∧ v ≤ hi then some v else none

/-- The byte of an optional output, FFh when absent. -/
def outputByte : Option OutId → Byte
  | some o => byteOf o
  | none => 0xFF#8

/-- The byte of a binding, FFh for none. -/
def bindingByte : Option AxisId → Byte
  | some a => byteOf a
  | none => 0xFF#8

/-- The code of a status (R190). -/
def Status.code : Status → Byte
  | .done => 0x00#8 | .none => 0x01#8 | .inProgress => 0x02#8 | .unknownRequest => 0x10#8 | .badLength => 0x11#8
  | .badValue => 0x12#8 | .wrongState => 0x13#8 | .noSlot => 0x20#8 | .noSuchEntry => 0x21#8 | .mismatch => 0x22#8
  | .spansWrap => 0x23#8 | .listFull => 0x24#8 | .listSealed => 0x25#8 | .entryRetiring => 0x26#8
  | .hasDependents => 0x27#8 | .nothingPending => 0x28#8 | .fenced => 0x29#8 | .stopActive => 0x30#8
  | .backlogFull => 0x31#8

/-! ### The CRC (R189) -/

/-- One shift of the CRC register. -/
def crcShift (r : Byte) : Byte := if r.getLsbD 7 then (r <<< 1) ^^^ 0x07#8 else r <<< 1

/-- The register after one byte. -/
def crcByte (r b : Byte) : Byte :=
  crcShift (crcShift (crcShift (crcShift (crcShift (crcShift (crcShift (crcShift (r ^^^ b))))))))

/-- The CRC-8 of a sequence of bytes. -/
def crc8 (bs : List Byte) : Byte := bs.foldl crcByte 0#8

/-! ### Request frames (R186, R191) -/

/-- The argument length of a request code; none for a code that names no request (R191). -/
def argLength (code : Byte) : Option Nat :=
  match code.toNat with
  | 0x01 => some 0 | 0x02 => some 0 | 0x03 => some 1 | 0x04 => some 1
  | 0x10 => some 13 | 0x11 => some 1 | 0x12 => some 1 | 0x13 => some 3 | 0x14 => some 3 | 0x15 => some 5
  | 0x16 => some 1
  | 0x20 => some 6 | 0x21 => some 2 | 0x22 => some 1 | 0x23 => some 1
  | 0x30 => some 15 | 0x31 => some 15 | 0x32 => some 3 | 0x33 => some 4 | 0x34 => some 1 | 0x35 => some 1
  | 0x36 => some 2 | 0x38 => some 2 | 0x39 => some 5
  | 0x40 => some 2
  | 0x50 => some 0 | 0x51 => some 0
  | 0x60 => some 0 | 0x61 => some 0 | 0x62 => some 1 | 0x63 => some 2
  | _ => none

/-- The bytes of a well-formed request frame after its code: tag, length, arguments, CRC (R186). -/
def frameRest (code tag : Byte) (args : List Byte) : List Byte :=
  [tag, byteOf args.length] ++ args ++ [crc8 ([code, tag, byteOf args.length] ++ args)]

/-- Whether a transaction's bytes begin with the eight FFh of a break (R174). -/
def isBreak (bs : List Byte) : Bool := (bs.take 8) == List.replicate 8 0xFF#8

/-- What the port takes the whole bytes of a transaction for (R174). -/
inductive Sorted where
  | nothing
  | portBreak
  | poll
  | request (code : Byte) (rest : List Byte)
deriving DecidableEq, Repr

/-- The sorting of a transaction's bytes by their beginning: no whole byte, a break, a poll, or a request frame, in that
order (R174). -/
def sortBytes : List Byte → Sorted
  | [] => .nothing
  | code :: rest =>
    if isBreak (code :: rest) then .portBreak else if code = 0x00#8 then .poll else .request code rest

/-! ### The arguments of the requests (R187, R191) -/

/-- The configuration a CONFIG_AXIS carries with the CONFIGURE choice (R33). -/
structure AxisConfig where
  source : Source
  modulus : Nat
  indexPoint : Option Nat
  tolerance : Byte
  invert : Bool
  filter : Byte
  faultAction : FaultAction
deriving DecidableEq, Repr

/-- The index point of a CONFIG_AXIS, its bytes decoded only when present; it is below the modulus (R33, R187). -/
def decodeIndexPoint (modulus presence value : Nat) : Option (Option Nat) :=
  match boolOf presence with
  | some true => if value < modulus then some (some value) else none
  | some false => some none
  | none => none

/-- The CONFIGURE fields of a CONFIG_AXIS, from its argument bytes 2 to 12 (R33, R191). -/
def decodeAxisConfig (args : List Byte) : Option AxisConfig := do
  let source ← sourceOf (natAt args 2 1)
  let modulus ← withinNat 16 65536 (natAt args 3 3)
  let indexPoint ← decodeIndexPoint modulus (natAt args 6 1) (natAt args 7 2)
  let invert ← boolOf (natAt args 10 1)
  let faultAction ← faultActionOf (natAt args 12 1)
  return ⟨source, modulus, indexPoint, byteOf (natAt args 9 1), invert, byteOf (natAt args 11 1), faultAction⟩

/-- The arguments of CONFIG_AXIS; with the OFF choice (answered none) no byte after the choice is decoded (R187). -/
def decodeConfigAxis (args : List Byte) : Option (AxisId × Option AxisConfig) := do
  let a ← axisOf (natAt args 0 1)
  match natAt args 1 1 with
  | 0 => (decodeAxisConfig args).map (fun c => (a, some c))
  | 1 => return (a, none)
  | _ => none

/-- The arguments of CONFIG_OUTPUT (R97). -/
structure OutputConfig where
  output : OutId
  binding : Option AxisId
  drive : DriveType
  polarity : Polarity
  safeLevel : SafeLevel
  toggleInitial : Bool
deriving DecidableEq, Repr

/-- The decoding of the arguments of CONFIG_OUTPUT (R97, R191). -/
def decodeConfigOutput (args : List Byte) : Option OutputConfig := do
  let o ← outputOf (natAt args 0 1)
  let binding ← bindingOf (natAt args 1 1)
  let drive ← driveOf (natAt args 2 1)
  let polarity ← polarityOf (natAt args 3 1)
  let safeLevel ← safeLevelOf (natAt args 4 1)
  let toggleInitial ← boolOf (natAt args 5 1)
  return ⟨o, binding, drive, polarity, safeLevel, toggleInitial⟩

/-- The action of a PLACE: the fields its kind carries are decoded, the others are not (R108, R187). -/
def decodeAction (kind : Kind) (output off duration qualifier : Nat) : Option Action :=
  match kind with
  | .window => (outputOf output).map (fun o => .window o off)
  | .pulse => do
    let o ← outputOf output
    let d ← withinNat 10 65535 duration
    let q ← qualifierOf qualifier
    return .pulse o d q
  | .toggle => do
    let o ← outputOf output
    let q ← qualifierOf qualifier
    return .toggle o q
  | .mark => (qualifierOf qualifier).map .mark

/-- The decoding of the arguments of PLACE: the entry it asks for and the close-after option (R108, R191). A MARK
is stored with notify set whatever its byte gives (R12). -/
def decodePlace (args : List Byte) : Option (Entry × Bool) := do
  let a ← axisOf (natAt args 0 1)
  let kind ← kindOf (natAt args 1 1)
  let action ← decodeAction kind (natAt args 2 1) (natAt args 5 2) (natAt args 7 2) (natAt args 9 1)
  let once ← boolOf (natAt args 10 1)
  let notify ← boolOf (natAt args 11 1)
  let close ← boolOf (natAt args 14 1)
  return (⟨a, natAt args 3 2, action, once, notify || kind == .mark, BitVec.ofNat 16 (natAt args 12 2)⟩, close)

/-- A field of an ALTER, decoded only when its presence bit is set (R187). -/
def decodeWhen {α : Type} (present : Bool) (value : Option α) : Option (Option α) :=
  if present then value.map some else some none

/-- The decoding of the arguments of ALTER: the handle, the values present, and the close-after option (R109, R191).
A duration present below 10 µs fails here whatever the entry's kind (log entry 12). -/
def decodeAlter (args : List Byte) : Option (Nat × AlterValues × Bool) := do
  let h ← handleOf (natAt args 0 2)
  let mask ← reasonsOf (natAt args 2 1)
  let on ← decodeWhen (mask.getLsbD 0) (some (natAt args 3 2))
  let off ← decodeWhen (mask.getLsbD 1) (some (natAt args 5 2))
  let duration ← decodeWhen (mask.getLsbD 2) (withinNat 10 65535 (natAt args 7 2))
  let qualifier ← decodeWhen (mask.getLsbD 3) (qualifierOf (natAt args 9 1))
  let once ← decodeWhen (mask.getLsbD 4) (boolOf (natAt args 10 1))
  let notify ← decodeWhen (mask.getLsbD 5) (boolOf (natAt args 11 1))
  let label ← decodeWhen (mask.getLsbD 6) (some (BitVec.ofNat 16 (natAt args 12 2)))
  let close ← boolOf (natAt args 14 1)
  return (h, ⟨on, off, duration, qualifier, once, notify, label⟩, close)

/-- The decoding of the arguments of RETIRE (R110, R191). -/
def decodeRetire (args : List Byte) : Option (Nat × Bool) := do
  let h ← handleOf (natAt args 0 2)
  let close ← boolOf (natAt args 2 1)
  return (h, close)

/-- The decoding of the arguments of SET_LEAD (R112, R191). -/
def decodeSetLead (args : List Byte) : Option (OutId × Int × Bool) := do
  let o ← outputOf (natAt args 0 1)
  let lead ← withinInt (-2048) 2047 (intAt args 1 2)
  let close ← boolOf (natAt args 3 1)
  return (o, lead, close)

/-! ### Records (R192) -/

/-- The presence mask of the values an ALTER holds (R190). -/
def AlterValues.presence (v : AlterValues) : Byte :=
  byteOf ((if v.on.isSome then 1 else 0) + (if v.off.isSome then 2 else 0) + (if v.duration.isSome then 4 else 0)
    + (if v.qualifier.isSome then 8 else 0) + (if v.oncePerRev.isSome then 16 else 0)
    + (if v.notify.isSome then 32 else 0) + (if v.label.isSome then 64 else 0))

/-- The values of an ALTER, and of a PLACE, as READ_PENDING lays them out from the on point to the label; the bytes
of an absent point and of an absent label are 00h (R190, R192). Those of the other absent fields, for which R190 states
no byte, are 00h too (DESIGN CHOICE, log entry 15). -/
def AlterValues.bytes (v : AlterValues) : List Byte :=
  bytesOf 2 (v.on.getD 0) ++ bytesOf 2 (v.off.getD 0) ++ bytesOf 2 (v.duration.getD 0)
    ++ [(v.qualifier.map Qualifier.code).getD 0#8, boolByte (v.oncePerRev.getD false),
        boolByte (v.notify.getD false)]
    ++ bytesOf 2 ((v.label.map BitVec.toNat).getD 0)

/-- The staged fields of an entry, each marked present where its kind carries it (R129, R192). -/
def Entry.values (e : Entry) : AlterValues :=
  ⟨some e.on, e.off?, e.duration?, e.qualifier?, some e.oncePerRev, some e.notify, some e.label⟩

end Sys2Proof.Machine
end

