-- ==== Sys2Proof/Decode.lean ====
section
/-! DEFINITION. The decoder of table words, and the command that a transaction's bytes spell. No row of
spec/opcode_table.json gives bits: the part is a block that takes commands, and it decodes no instruction words. -/

namespace Sys2Proof

/-- The command a table word spells: none, since no row gives bits. -/
def decodeTableWord (_nbits _w : Nat) : Option Instr := none

/-- The command of a request frame with this code; `l` are the levels that a CONFIG_AXIS finds on its lines. -/
def requestCommand (code : Byte) (rest : List Byte) (l : Lines) (pace : Pace) : Instr :=
  match code.toNat with
  | 0x01 => .nop ⟨rest, pace⟩
  | 0x02 => .readStatus ⟨rest, pace⟩
  | 0x03 => .ackAttention ⟨rest, pace⟩
  | 0x04 => .setAttentionMask ⟨rest, pace⟩
  | 0x10 => .configAxis ⟨rest, pace⟩ l
  | 0x11 => .runAxis ⟨rest, pace⟩
  | 0x12 => .haltAxis ⟨rest, pace⟩
  | 0x13 => .setPosition ⟨rest, pace⟩
  | 0x14 => .moveAxis ⟨rest, pace⟩
  | 0x15 => .setRate ⟨rest, pace⟩
  | 0x16 => .readAxis ⟨rest, pace⟩
  | 0x20 => .configOutput ⟨rest, pace⟩
  | 0x21 => .setOutputMode ⟨rest, pace⟩
  | 0x22 => .clearOutputFault ⟨rest, pace⟩
  | 0x23 => .readOutput ⟨rest, pace⟩
  | 0x30 => .place ⟨rest, pace⟩
  | 0x31 => .alter ⟨rest, pace⟩
  | 0x32 => .retire ⟨rest, pace⟩
  | 0x33 => .setLead ⟨rest, pace⟩
  | 0x34 => .closeList ⟨rest, pace⟩
  | 0x35 => .discard ⟨rest, pace⟩
  | 0x36 => .readPending ⟨rest, pace⟩
  | 0x38 => .readEntry ⟨rest, pace⟩
  | 0x39 => .listAxis ⟨rest, pace⟩
  | 0x40 => .readNotify ⟨rest, pace⟩
  | 0x50 => .enterSafe ⟨rest, pace⟩
  | 0x51 => .releaseSafe ⟨rest, pace⟩
  | 0x60 => .readFaultReport ⟨rest, pace⟩
  | 0x61 => .clearFaultReport ⟨rest, pace⟩
  | 0x62 => .tableTest ⟨rest, pace⟩
  | 0x63 => .spoilCheck ⟨rest, pace⟩
  | _ => .unknownRequest code rest

/-- The command that the whole bytes of a transaction spell (R174). -/
def commandOfBytes (bytes : List Byte) (l : Lines) (pace : Pace) : Instr :=
  match Machine.sortBytes bytes with
  | .nothing => .outgoingFrame
  | .portBreak => .portBreak (bytes.drop 8)
  | .poll => .poll (bytes.drop 1)
  | .request code rest => requestCommand code rest l pace

end Sys2Proof
end

