-- ==== Sys2Proof/Machine/Flags.lean ====
section
/-! DEFINITION. Attention (chapter 6): the reasons, the present set, the summary and the ATTN line; and the
notify set they are raised from. -/

namespace Sys2Proof.Machine

/-! ### Reasons (R137, numbered as in R188) -/

/-- NOTIFY, a level reason. -/
def reasonNotify : ReasonSet := 0b0000001#7
/-- FAULT, a level reason. -/
def reasonFault : ReasonSet := 0b0000010#7
/-- SAFE_ENTERED, a latched reason. -/
def reasonSafeEntered : ReasonSet := 0b0000100#7
/-- SAFE_RELEASED, a latched reason. -/
def reasonSafeReleased : ReasonSet := 0b0001000#7
/-- AXIS_CHANGED, a latched reason. -/
def reasonAxisChanged : ReasonSet := 0b0010000#7
/-- BATCH_APPLIED, a latched reason. -/
def reasonBatchApplied : ReasonSet := 0b0100000#7
/-- REQUEST_DONE, a latched reason. -/
def reasonRequestDone : ReasonSet := 0b1000000#7

/-- A latched reason is set; set again it stays present (R137). -/
def State.latch (s : State) (r : ReasonSet) : State := { s with latched := s.latched ||| r }

/-! ### The notify set (chapter 6.1) -/

/-- Whether a slot is a member of the notify set: its notify pending field is set (R15, R130). -/
def Slot.isMember (v : Slot) : Bool :=
  match v.log? with
  | some l => l.notifyPending
  | none => false

/-- The members of the notify set in ascending handle order (R130). -/
def State.notifySet (s : State) : List Nat := handles.filter (fun h => (s.slot h).isMember)

/-- A member is missed once more, staying at 255 (R15). -/
def FireLog.miss (l : FireLog) : FireLog := { l with missed := if l.missed < 255 then l.missed + 1 else l.missed }

/-- The effect of a handing on the record of a LIVE or FENCED slot (R131). -/
def FireLog.hand (l : FireLog) : FireLog := if l.notifyPending then l.miss else { l with notifyPending := true }

/-- A fired handle is handed to the Notify Unit (R131). -/
def State.hand (s : State) (h : Nat) : State :=
  match s.slot h with
  | .live e ok r => s.setSlot h (.live e ok { r with log := r.log.hand })
  | .fenced e ok l => s.setSlot h (.fenced e ok l.hand)
  | .unread e ok l => s.setSlot h (.unread e ok l.miss)
  | .free | .staged _ _ | .disabled => s

/-! ### Attention -/

/-- The level reasons present: they follow their sources (R137). -/
def State.levelReasons (s : State) : ReasonSet :=
  (if s.notifySet.isEmpty then 0#7 else reasonNotify) ||| (if s.report.isSome then reasonFault else 0#7)

/-- The present set: the level reasons present together with the latched set (R137). -/
def State.presentSet (s : State) : ReasonSet := s.levelReasons ||| s.latched

/-- Whether ATTN is pulled low (R141). -/
def State.attnAsserted (s : State) : Bool :=
  s.phase != .held && (s.presentSet &&& s.mask) != 0#7

/-- The attention summary byte (R143, R188). -/
def State.summaryByte (s : State) : Byte :=
  s.presentSet.setWidth 8 ||| (if s.attnAsserted then 0x80#8 else 0#8)

end Sys2Proof.Machine
end

