-- ==== Sys2Proof/Machine/Integrity.lean ====
section
/-! DEFINITION. The Integrity Unit's operations (chapter 8): the fault report, what a fence does to
list and output, and check values. -/

namespace Sys2Proof.Machine

/-- A fault is handed to the fault report: it fills an invalid report, or is counted (R164). -/
def State.reportFault (s : State) (cause : FaultCause) (a : AxisId) (position : Nat) (revolution : BitVec 16) :
    State :=
  match s.report with
  | none => { s with report := some ⟨cause, a, position, revolution, 0⟩ }
  | some r => { s with report := some { r with further := if r.further < 255 then r.further + 1 else r.further } }

/-- The item that names a fenced entry is dropped from its list, which keeps its state (R127). -/
def PendingList.drop (l : PendingList) (h : Nat) : PendingList :=
  if l.items.any (Item.names h) then
    { l with items := l.items.filter (fun i => !i.names h), change := l.change + 1#8 }
  else l

/-- Claim 2 of a fence: the output loses an ACTIVE entry from its count and takes the fault hold, the held level
being captured from the pin before both (R94, R95, R160). -/
def Output.fence (x : Output) (kind : Kind) (wasActive : Bool) : Output :=
  let captured := x.capture
  { (if wasActive then captured.countDown kind else captured) with faultHold := true }

/-- Whether a read in the integrity sense of a slot finds an inconsistency: the check is made on STAGED and LIVE
entries alone (R159). -/
def Slot.failsCheck : Slot → Bool
  | .staged _ ok | .live _ ok _ => !ok
  | _ => false

/-- The check value of the entry in a slot becomes inconsistent, every field staying as it was (R158). -/
def Slot.spoiled : Slot → Slot
  | .staged e _ => .staged e false
  | .live e _ r => .live e false r
  | .fenced e _ l => .fenced e false l
  | .unread e _ l => .unread e false l
  | .free => .free
  | .disabled => .disabled

/-- A slot after the retirement of its entry: UNREAD while its notification waits, else FREE (R111, R123). -/
def retiredSlot (e : Entry) (ok : Bool) (log : FireLog) : Slot :=
  if log.notifyPending then .unread e ok log else .free

end Sys2Proof.Machine
end

