-- ==== Sys2Proof/Machine/Channels.lean ====
section
/-! DEFINITION. The work of the evaluation channels (R57): one piece at a time, made of claims between which the work can
stop. A piece that has stopped keeps what is left of it in the channel, and goes on from there. -/

namespace Sys2Proof.Machine

/-- The stop point before a task; only tasks on a single entry have one. -/
def Task.stop? : Task → Option StopPoint
  | .hand h => some (.handing h)
  | .fenceOutput h _ _ _ => some (.fenceOutput h)
  | .fenceReport h _ _ _ => some (.fenceReport h)
  | .cross h _ | .boundary h _ _ | .jumpDrop h | .settle h | .jumpSettle h => some (.entry h)
  | _ => none

/-- Whether a piece of work of a channel is in progress (R57). -/
def State.busy (s : State) (a : AxisId) : Bool := !(s.channel a).rest.isEmpty

/-- A task joins what is left of the piece of work in progress. -/
def State.defer (s : State) (a : AxisId) (t : Task) : State :=
  s.setChannel a { s.channel a with rest := (s.channel a).rest ++ [t] }

/-- The next task of a channel's work: where the work has stopped, or stops here, the task is left; otherwise it is
carried out by `run`. -/
def State.takeVia (run : State → Task → State) (a : AxisId) (s : State) (t : Task) : State :=
  if s.busy a || t.stop?.any (fun p => s.stops.contains p) then s.defer a t else run s t

/-- A command's work under its choice of stop points. -/
def State.stopping (s : State) (stops : List StopPoint) (work : State → State) : State :=
  { work { s with stops := stops } with stops := s.stops }

/-- The claims that finish a fire and a fence (R131, R160). -/
def State.runClaim (s : State) : Task → State
  | .hand h => s.hand h
  | .fenceOutput _ o kind wasActive => s.setOutput o ((s.output o).fence kind wasActive)
  | .fenceReport h a position revolution => s.reportFault (.entryCheck h) a position revolution
  | _ => s

/-- A claim of the work of the channel of `a`. -/
def State.claim (a : AxisId) (s : State) (t : Task) : State := s.takeVia State.runClaim a t

/-- A handing of a handle that its channel has left waiting is taken (R131). -/
def State.takeHanding (h : Nat) (s : State) (a : AxisId) : State :=
  match s.channel a with
  | ⟨.hand k :: rest, inverted⟩ => if k = h then (s.setChannel a ⟨rest, inverted⟩).hand h else s
  | _ => s

/-- Every waiting handing of a handle is taken. Where the slot is STAGED they are discarded, and this is done before its
entry becomes LIVE or FENCED, so that a label returned always belongs to the entry that fired (R131, R132). -/
def State.takeHandings (s : State) (h : Nat) : State := axisIds.foldl (State.takeHanding h) s

/-! ### The fence -/

/-- Claim 1 of a fence: the slot, and the item that names its entry (R160). `log` is what the FENCED slot keeps. The
handings that a STAGED slot finds waiting are an earlier entry's, and are taken before (R132). -/
def State.fenceSlot (s : State) (h : Nat) (e : Entry) (log : FireLog) : State :=
  let t := if (s.slot h).lifecycle = .staged then s.takeHandings h else s
  (t.setSlot h (.fenced e false log)).setList e.axis ((s.list e.axis).drop h)

/-- What a fence does to a slot: the entry, whether it was ACTIVE, and the record it keeps. A STAGED entry has never
fired: it keeps a fresh record (DEDUCED, log entry 9). -/
def Slot.toFence : Slot → Option (Entry × Bool × FireLog)
  | .staged e _ => some (e, false, FireLog.fresh)
  | .live e _ r => some (e, r.activity != .idle, r.log)
  | _ => none

/-- Claims 2 and 3 of a fence, the second for an entry that has an output (R160). -/
def Entry.fenceClaims (e : Entry) (h : Nat) (wasActive : Bool) (position : Nat) (revolution : BitVec 16) : List Task :=
  (e.output.map (fun o => Task.fenceOutput h o e.kind wasActive)).toList ++ [.fenceReport h e.axis position revolution]

/-- Claim 1 of the fence of a STAGED or LIVE entry, and the claims that follow it (R160). -/
def State.beginFence (s : State) (h : Nat) : State × List Task :=
  match (s.slot h).toFence with
  | some (e, wasActive, log) =>
    (s.fenceSlot h e log, e.fenceClaims h wasActive (s.axis e.axis).position (s.axis e.axis).revolution)
  | none => (s, [])

/-- The fence by a read of the channel of `a`, whose work can stop between the claims (R160). -/
def State.fenceFrom (a : AxisId) (s : State) (h : Nat) : State :=
  (s.beginFence h).2.foldl (State.claim a) (s.beginFence h).1

/-- A read in the integrity sense by a request: an entry found inconsistent is fenced by it. Claim 1 is taken with the
read; claims 2 and 3 are what the request has still to take (R159, R160). -/
def State.checkRead (s : State) (h : Nat) : State × List Task :=
  if (s.slot h).failsCheck then s.beginFence h else (s, [])

/-! ### Claims on an output that wait -/

/-- Whether a task is claim 2 of a fence, on this output. -/
def Task.fences (o : OutId) : Task → Bool
  | .fenceOutput _ o' _ _ => o' == o
  | _ => false

/-- The claims of fences on an output that the channel of `a` has left waiting are taken. -/
def State.takeFence (o : OutId) (s : State) (a : AxisId) : State :=
  let c := s.channel a
  (c.rest.filter (Task.fences o)).foldl State.runClaim
    (s.setChannel a { c with rest := c.rest.filter (fun t => !t.fences o) })

/-- Every waiting claim of a fence on an output is taken, so that none is carried to a new axis or drive type (R86, R88,
R99). -/
def State.takeFences (s : State) (o : OutId) : State := axisIds.foldl (State.takeFence o) s

end Sys2Proof.Machine
end

