-- ==== Sys2Proof/Machine/Sweep.lean ====
section
/-! DEFINITION. The Sweep Evaluator's shared operations (chapter 3): fires, settles, jumps, and the parts of a
step that judge the entries at the step point. -/

namespace Sys2Proof.Machine

/-! ### Fires -/

/-- The run-time fields after a fire of an entry, but for its activity and its notification (R72). -/
def Run.fired (r : Run) (e : Entry) (revolution : BitVec 16) (dir : FireDir) (activity : Activity) : Run :=
  { activity := activity
    spent := r.spent || e.oncePerRev
    log := { r.log with passCount := r.log.passCount + 1#16, lastFire := some ⟨revolution, dir⟩ } }

/-- A fire of a LIVE entry by the channel of `a`: the claim on the entry, and the handing to the Notify Unit after it
(R72). -/
def State.fire (a : AxisId) (s : State) (h : Nat) (dir : FireDir) (activity : Activity) : State :=
  match s.slot h with
  | .live e ok r =>
    let written := s.setSlot h (.live e ok (r.fired e (s.axis e.axis).revolution dir activity))
    if e.notify then written.claim a (.hand h) else written
  | _ => s

/-- A WINDOW or PULSE goes from IDLE to ACTIVE by a fire: the count of its output goes up (R64, R69, R73). -/
def State.activate (a : AxisId) (s : State) (h : Nat) (e : Entry) (dir : FireDir) (timer : Option Nat) : State :=
  (s.countUpFor e).fire a h dir (.active timer)

/-! ### The work on one entry

The channel of an axis judges LIVE entries of that axis alone, while it is REFERENCED and not FAULTED (R58, R73). No claim
that could change either comes between the claims of a piece of work. -/

/-- The LIVE entry of a slot that the channel of `a` judges, with the state of its check value and its run-time fields. -/
def State.judged (s : State) (a : AxisId) (h : Nat) : Option (Entry × Bool × Run) :=
  match s.slot h with
  | .live e ok r =>
    if e.axis = a ∧ (s.axis a).referenced ∧ (s.axis a).state ≠ .faulted then some (e, ok, r) else none
  | _ => none

/-- The work on one entry: an integrity read, which fences an inconsistent entry, and `act` on a consistent one
(R83, R84). -/
def State.judge (a : AxisId) (s : State) (h : Nat) (act : Entry → Run → State) : State :=
  match s.judged a h with
  | none => s
  | some (e, ok, r) => if ok then act e r else s.fenceFrom a h

/-- What a settle does to a consistent entry: a WINDOW that is IDLE, not spent and contains the position becomes ACTIVE
and fires with direction NONE (R73). -/
def State.settleEntry (a : AxisId) (s : State) (h : Nat) (e : Entry) (r : Run) : State :=
  match e.action with
  | .window _ off =>
    if r.activity = .idle ∧ r.spent = false ∧ s.inWindow e off then s.activate a h e .none none else s
  | _ => s

/-- The settle of one entry (R73). -/
def State.settle (a : AxisId) (s : State) (h : Nat) : State := s.judge a h (fun e r => s.settleEntry a h e r)

/-- Step 2 of a jump for one WINDOW: its settle; the read of step 1 serves it (R76, R83). -/
def State.jumpSettle (a : AxisId) (s : State) (h : Nat) : State :=
  match s.judged a h with
  | none => s
  | some (e, _, r) => s.settleEntry a h e r

/-- Step 1 of a jump for one WINDOW: it is read, and ends silently if it does not contain the position (R76). -/
def State.jumpDrop (a : AxisId) (s : State) (h : Nat) : State :=
  s.judge a h (fun e _ =>
    match e.action with
    | .window _ off => if s.inWindow e off then s else s.endActivity h
    | _ => s)

/-- Whether a qualifier admits a step's direction (R63). -/
def Qualifier.admits : Qualifier → FireDir → Bool
  | .forward, d => d == .forward
  | .reverse, d => d == .reverse
  | .either, _ => true

/-- The toggle latch of an output is inverted (R65, R89). -/
def Output.invertLatch (x : Output) : Output := { x with latch := !x.latch }

/-- The toggle latch of an output is inverted unless this step has inverted it already (R65). The inversion is taken with
the fire of the entry, before its handing (DESIGN CHOICE, log entry 18). -/
def State.invertOnce (s : State) (a : AxisId) (o : OutId) : State :=
  let c := s.channel a
  if o ∈ c.inverted then s
  else (s.setOutput o (s.output o).invertLatch).setChannel a { c with inverted := o :: c.inverted }

/-- The fire of an entry in part 3, by kind (R64 to R66). R65 leaves open on which side of the first TOGGLE's handing its
output's latch is inverted; here it comes before (DESIGN CHOICE, log entry 18). -/
def State.crossFire (a : AxisId) (s : State) (h : Nat) (e : Entry) (r : Run) (dir : FireDir) : State :=
  match e.action with
  | .window _ _ => s
  | .pulse _ d _ =>
    if r.activity = .idle then s.activate a h e dir (some d) else s.fire a h dir (.active (some d))
  | .toggle o _ => (s.invertOnce a o).fire a h dir .idle
  | .mark _ => s.fire a h dir .idle

/-- Part 3 of a step for one PULSE, TOGGLE or MARK at the step point: it fires if its qualifier admits the step and it
is not spent (R63). -/
def State.cross (a : AxisId) (s : State) (h : Nat) (dir : FireDir) : State :=
  s.judge a h (fun e r =>
    if (e.qualifier?.any (fun q => q.admits dir)) ∧ r.spent = false then s.crossFire a h e r dir else s)

/-- Whether a step enters a WINDOW that has a boundary at the step point; otherwise it leaves it (R68). -/
def State.enters (s : State) (e : Entry) (point : Nat) (dir : FireDir) : Bool :=
  (s.effOn e == point) == (dir == .forward)

/-- Part 4 of a step for one WINDOW with a boundary at the step point: it is entered (R69) or left (R70). -/
def State.boundary (a : AxisId) (s : State) (h : Nat) (point : Nat) (dir : FireDir) : State :=
  s.judge a h (fun e r =>
    match e.action with
    | .window _ _ =>
      if s.enters e point dir then
        if r.activity = .idle ∧ r.spent = false then s.activate a h e dir none else s
      else s.endActivity h
    | _ => s)

/-- The tasks on a single entry, and the claims that finish them. -/
def State.runEntry (a : AxisId) (s : State) : Task → State
  | .cross h dir => s.cross a h dir
  | .boundary h point dir => s.boundary a h point dir
  | .jumpDrop h => s.jumpDrop a h
  | .settle h => s.settle a h
  | .jumpSettle h => s.jumpSettle a h
  | t => s.runClaim t

/-- Work on several entries, one after the other. -/
def State.takeEntries (a : AxisId) (s : State) (ts : List Task) : State :=
  ts.foldl (State.takeVia (State.runEntry a) a) s

/-- Whether an entry is a WINDOW. -/
def Entry.isWindow (e : Entry) : Bool := e.kind == .window

/-- Every LIVE WINDOW of an axis, in the order of the axis (R75, R76). -/
def State.liveWindows (s : State) (a : AxisId) : List Nat := s.liveInOrder a Entry.isWindow

/-! ### The parts of a piece of work -/

/-- Part 3 of a step: the PULSE, TOGGLE and MARK entries at the step point, in the order of the axis (R63). -/
def State.crossings (a : AxisId) (s : State) (point : Nat) (dir : FireDir) : State :=
  (s.setChannel a { s.channel a with inverted := [] }).takeEntries a
    ((s.liveInOrder a (fun e => !e.isWindow && s.effOn e == point)).map (fun h => .cross h dir))

/-- Part 4 of a step: the WINDOW entries with a boundary at the step point, in the order of the axis (R68). -/
def State.boundaries (a : AxisId) (s : State) (point : Nat) (dir : FireDir) : State :=
  (s.setChannel a { s.channel a with inverted := [] }).takeEntries a
    ((s.liveInOrder a (fun e => e.isWindow && (s.effOn e == point || s.effOff e == some point))).map
      (fun h => .boundary h point dir))

/-- The settle of entries in the order given; on an axis that is UNREFERENCED or FAULTED it is not carried out (R73). -/
def State.settleAll (a : AxisId) (s : State) (hs : List Nat) : State := s.takeEntries a (hs.map Task.settle)

/-- Every window of an axis is settled, outside a step (R75). -/
def State.settleWindows (s : State) (a : AxisId) : State := s.settleAll a (s.liveWindows a)

/-- The evaluation of a jump on a REFERENCED axis: step 1 for every LIVE WINDOW, then step 2 settles them in the
order of the axis (R76). -/
def State.evaluateJump (s : State) (a : AxisId) : State :=
  let windows := s.liveWindows a
  s.takeEntries a (windows.map Task.jumpDrop ++ windows.map Task.jumpSettle)

/-- A jump that makes the tracked position `value` and references the axis (R41, R53). -/
def Axis.jumped (x : Axis) (value : Nat) : Axis :=
  { x with
    position := wrapTo x.modulus ((value : Int) - x.backlog)
    referenced := true
    corrections := 0 }

/-- A jump with its evaluation (R76). -/
def State.jumpTo (s : State) (a : AxisId) (value : Nat) : State :=
  (s.setAxis a ((s.axis a).jumped value)).evaluateJump a

/-- Spent is cleared on one LIVE entry; FENCED entries are passed over (R60). -/
def State.clearSpent (s : State) (h : Nat) : State :=
  match s.slot h with
  | .live e ok r => s.setSlot h (.live e ok { r with spent := false })
  | _ => s

end Sys2Proof.Machine
end

