-- ==== Sys2Proof/Machine/Lists.lean ====
section
/-! DEFINITION. The application of a pending list (chapter 5.4). -/

namespace Sys2Proof.Machine

/-- The values of an ALTER written over the configuration of an entry: an absent value leaves its field, a value
for a field the kind does not carry is never present (R109), and a MARK keeps notify set (R12, R122). -/
def AlterValues.writeTo (v : AlterValues) (e : Entry) : Entry :=
  { e with
    on := v.on.getD e.on
    action :=
      match e.action with
      | .window o off => .window o (v.off.getD off)
      | .pulse o d q => .pulse o (v.duration.getD d) (v.qualifier.getD q)
      | .toggle o q => .toggle o (v.qualifier.getD q)
      | .mark q => .mark (v.qualifier.getD q)
    oncePerRev := v.oncePerRev.getD e.oncePerRev
    notify := if e.kind = .mark then true else v.notify.getD e.notify
    label := v.label.getD e.label }

/-! ### One item -/

/-- The application of a PLACE item to a consistent entry: the STAGED entry becomes LIVE (R121). A handing of an earlier
entry of the slot is taken before (R132). -/
def State.applyPlace (s : State) (h : Nat) : State :=
  match s.slot h with
  | .staged e _ => (s.takeHandings h).setSlot h (.live e true Run.fresh)
  | _ => s

/-- The application of an ALTER item to a consistent entry: silent end, new values with a fresh check value, spent
cleared (R122). -/
def State.applyAlter (s : State) (h : Nat) (v : AlterValues) : State :=
  match s.slot h with
  | .live e _ r =>
    (s.endActivity h).setSlot h (.live (v.writeTo e) true { activity := .idle, spent := false, log := r.log })
  | _ => s

/-- The application of a RETIRE item to a consistent entry: silent end, and the slot becomes UNREAD or FREE (R123). -/
def State.applyRetire (s : State) (h : Nat) : State :=
  match s.slot h with
  | .live e ok r => (s.endActivity h).setSlot h (retiredSlot e ok r.log)
  | _ => s

/-- The application of a SET_LEAD item: the output's entries end silently and the lead is written (R124). -/
def State.applyLead (s : State) (o : OutId) (lead : Int) : State :=
  let silenced := (s.liveOn o).foldl State.endActivity s
  silenced.setOutput o { silenced.output o with lead := lead }

/-- The application of one item whose entry is consistent (R120). -/
def State.applyItem (s : State) : Item → State
  | .place h => s.applyPlace h
  | .alter h v => s.applyAlter h v
  | .retire h => s.applyRetire h
  | .setLead o lead => s.applyLead o lead

/-- Whether the entry an item names is found inconsistent (R120); a SET_LEAD names none. -/
def State.itemFails (s : State) (i : Item) : Bool := i.handle?.any (fun h => (s.slot h).failsCheck)

/-- The next item of the list of an axis: its entry is read, and fenced where it is inconsistent, which drops the item
unapplied; otherwise the item leaves the list and is applied (R120). -/
def State.applyNext (a : AxisId) (s : State) : State :=
  match (s.list a).items with
  | [] => s
  | i :: more =>
    let passed (t : State) : State := t.setList a { t.list a with items := more }
    if s.itemFails i then passed (i.handle?.elim s (s.fenceFrom a)) else (passed s).applyItem i

/-! ### The whole list -/

/-- The end of an application: the list is empty and open, its change number goes up by one, and BATCH_APPLIED is set
where the occasion sets it (R119, R125). -/
def State.endApplication (s : State) (a : AxisId) (announced : Bool) : State :=
  let opened := s.setList a ⟨[], false, (s.list a).change + 1#8⟩
  if announced then opened.latch reasonBatchApplied else opened

/-- The application of the closed list of an axis, item by item in list order (R119, R120); an open list is left alone.
Where the work stops in the fence of an entry, the rest of the application is left. -/
def State.applyClosed (s : State) (a : AxisId) (announced : Bool) : State :=
  if (s.list a).closed then
    let t := (s.list a).items.foldl (fun t _ => if t.busy a then t else t.applyNext a) s
    if t.busy a then t.defer a (.application announced) else t.endApplication a announced
  else s

/-- Whether an entry is an applied entry of a list that held `items`: named by a PLACE or ALTER item, or of an output
named by a SET_LEAD item (R60). A LIVE entry alone is settled. -/
def Entry.appliedBy (e : Entry) (items : List Item) (h : Nat) : Bool :=
  items.any (fun i => match i with
    | .place k | .alter k _ => k == h
    | .retire _ => false
    | .setLead o _ => e.targets o)

/-- The applied entries of a list that held `items` are settled, in the order of the axis (R60, R74, R125). -/
def State.settleApplied (a : AxisId) (s : State) (items : List Item) : State :=
  s.settleAll a ((s.order a).filter (fun h => (s.slot h).entry?.any (fun e => e.appliedBy items h)))

end Sys2Proof.Machine
end

