-- ==== Sys2Proof/Machine/SafeState.lean ====
section
/-! DEFINITION. The Safe-State Controller's operations (chapter 7): entry into SAFE, and release. -/

namespace Sys2Proof.Machine

/-- Entry into SAFE; a cause taken while the device is SAFE changes nothing (R146). -/
def State.enterSafe (s : State) : State :=
  if s.condition = .safe then s
  else { s with condition := .safe, outputs := s.outputs.map Output.setSafeHold }.latch reasonSafeEntered

/-- Whether any output has its safe hold. -/
def State.anySafeHold (s : State) : Bool := s.outputs.toList.any (fun x => x.safeHold)

/-- The number of outputs whose safe hold is set (R147). -/
def State.safeHolds (s : State) : Nat := s.outputs.toList.countP (fun x => x.safeHold)

/-- The controller looks at the safe holds after a release: with none left the condition becomes NORMAL and
SAFE_RELEASED is set (R150). -/
def State.finishRelease (s : State) : State :=
  if s.anySafeHold then s else { s with condition := .normal }.latch reasonSafeReleased

/-- Whether a release takes an output: it has its safe hold, and its binding satisfies `p`. -/
def Output.released (p : Option AxisId → Bool) (x : Output) : Bool := x.safeHold && p x.binding

/-- The release of one output clears its safe hold and nothing else (R150). -/
def Output.release (p : Option AxisId → Bool) (x : Output) : Output :=
  if x.released p then { x with safeHold := false } else x

/-- One claim that releases the outputs whose binding satisfies `p` (R150); one that releases none changes
nothing. -/
def State.releaseWhere (s : State) (p : Option AxisId → Bool) : State :=
  if s.outputs.toList.any (Output.released p) then
    { s with outputs := s.outputs.map (Output.release p) }.finishRelease
  else s

/-- An axis hands the controller the release of its waiting outputs: in RELEASING they are released, otherwise
nothing changes (R151, R152). -/
def State.releaseAxis (s : State) (a : AxisId) : State :=
  if s.condition = .releasing then s.releaseWhere (fun b => b == some a) else s

/-- Whether an output of this binding waits at a RELEASE_SAFE: its axis is RUNNING or HALTING (R149). -/
def State.waits (s : State) (b : Option AxisId) : Bool :=
  match b with
  | some a => (s.axis a).stepping
  | none => false

/-- The release that RELEASE_SAFE starts from SAFE (R149): the outputs that do not wait are released in the claim
that makes the condition RELEASING. -/
def State.beginRelease (s : State) : State :=
  { s with condition := .releasing, outputs := s.outputs.map (Output.release (fun b => !s.waits b)) }.finishRelease

/-- A CONFIG_OUTPUT has changed the binding of an output: in RELEASING an output that still has its safe hold and
no longer waits is released at once (R153). -/
def State.rebound (s : State) (o : OutId) : State :=
  if s.condition = .releasing ∧ (s.output o).safeHold ∧ ¬ s.waits (s.output o).binding then
    (s.setOutput o { s.output o with safeHold := false }).finishRelease
  else s

end Sys2Proof.Machine
end

