-- ==== Sys2Proof/Machine/Evaluator.lean ====
section
/-! DEFINITION. The pieces of work of the evaluation channels, their ends and stops, and the events of the channels: STEP,
PULSE_EXPIRY and AXIS_SILENT_END (chapter 3); and the entry of an axis into HALTED (R39). -/

namespace Sys2Proof.Machine

/-! ### A step -/

/-- Everything a step's first claim fixes about it (R51, R58, R59, R62). -/
structure StepPlan where
  dir : FireDir
  newPosition : Nat
  point : Nat
  wrap : Bool

/-- The plan of the step an axis takes: forward for a positive backlog, reverse for a negative one (R51, R59). -/
def Axis.plan (x : Axis) : StepPlan :=
  if 0 < x.backlog then
    let q := if x.position + 1 < x.modulus then x.position + 1 else 0
    ⟨.forward, q, q, decide (x.modulus ≤ x.position + 1)⟩
  else
    ⟨.reverse, if x.position = 0 then x.modulus - 1 else x.position - 1, x.position, x.position == 0⟩

/-- The revolution count after a wrap (R28, R60). -/
def Axis.wrapRevolution (x : Axis) (dir : FireDir) : Axis :=
  { x with revolution := if dir = .forward then x.revolution + 1#16 else x.revolution - 1#16 }

/-- The beginning of the wrap part: the revolution count and the clearing of spent (R60). -/
def State.beginWrap (s : State) (a : AxisId) (dir : FireDir) : State :=
  let counted := s.setAxis a ((s.axis a).wrapRevolution dir)
  (counted.liveOf a).foldl State.clearSpent counted

/-- The position part, one claim with the take of the count: the position takes its new value and the backlog
moves one toward 0 (R51, R62). -/
def Axis.advance (x : Axis) : Axis :=
  { x with
    position := x.plan.newPosition
    backlog := if 0 < x.backlog then x.backlog - 1 else x.backlog + 1 }

/-- The position part of a step (R62), on an axis that has a count to take. -/
def State.advance (s : State) (a : AxisId) : State :=
  if (s.axis a).stepping ∧ (s.axis a).backlog ≠ 0 then s.setAxis a (s.axis a).advance else s

/-- The parts of a step after the beginning of its wrap part, in the order of R58. Whether the axis is REFERENCED is
judged once for the whole step; `items` are those of a list that the wrap part applies. -/
def Axis.stepTasks (x : Axis) (items : List Item) : List Task :=
  (if x.plan.wrap then [.application true, .release] else []) ++ [.advance]
    ++ (if x.referenced then [.crossings x.plan.point x.plan.dir, .boundaries x.plan.point x.plan.dir] else [])
    ++ (if x.referenced && x.plan.wrap then [.settleApplied items] else [])
    ++ [.haltIfDone]

/-! ### The entry into HALTED -/

/-- The outcome a long request was waiting for is in: the executing request is ready to complete, whether the port
is EXECUTING or DRAINING (R179). -/
def PortState.makeReady (p : PortState) (status : Status) (payload : List Byte) : PortState :=
  match p with
  | .idle => .idle
  | .executing r => .executing { r with work := .ready status payload .nothing }
  | .draining r => .draining { r with work := .ready status payload .nothing }

/-- The work of the executing request, if there is one. -/
def PortState.work? : PortState → Option Work
  | .idle => none
  | .executing r | .draining r => some r.work

/-- A HALT_AXIS that waits for this axis has its outcome (R38, R39). -/
def State.haltReached (s : State) (a : AxisId) : State :=
  if s.port.state.work? = some (.halting a) then
    { s with port := { s.port with state := s.port.state.makeReady .done [] } }
  else s

/-- The first item of R39: an ENCODER axis that becomes HALTED is UNREFERENCED and its entries end silently; a
RATE or STEPPED axis keeps both. -/
def State.dropReference (s : State) (a : AxisId) : State :=
  if (s.axis a).source = .encoder then
    (s.setAxis a { s.axis a with referenced := false }).silenceAxis a
  else s

/-! ### The tasks of a channel -/

/-- The parts of a piece of work, and the tasks on single entries. -/
def State.runPart (a : AxisId) (s : State) : Task → State
  | .application announced => s.applyClosed a announced
  | .release => s.releaseAxis a
  | .advance => s.advance a
  | .crossings point dir => s.crossings a point dir
  | .boundaries point dir => s.boundaries a point dir
  | .settleApplied items => s.settleApplied a items
  | .silentEnd => s.silenceAxis a
  | .haltReached => s.haltReached a
  | t => s.runEntry a t

/-- Parts of a piece of work, one after the other. -/
def State.takeParts (a : AxisId) (s : State) (ts : List Task) : State := ts.foldl (State.takeVia (State.runPart a) a) s

/-- The items of a closed list, which an application applies; an open list is not applied (R119). -/
def PendingList.toApply (l : PendingList) : List Item := if l.closed then l.items else []

/-- A HALTING axis whose backlog has reached 0 becomes HALTED (R39): reference and activity, application with its
settle, release, and the outcome of HALT_AXIS. -/
def State.reachHalted (s : State) (a : AxisId) : State :=
  ((s.setAxis a { s.axis a with state := .halted }).dropReference a).takeParts a
    [.application true, .settleApplied (s.list a).toApply, .release, .haltReached]

/-- A HALTING axis whose backlog is 0 reaches HALTED (R39). -/
def State.haltIfDone (s : State) (a : AxisId) : State :=
  if (s.axis a).state = .halting ∧ (s.axis a).backlog = 0 then s.reachHalted a else s

/-- A task of the channel of `a`. -/
def State.run (a : AxisId) (s : State) : Task → State
  | .haltIfDone => s.haltIfDone a
  | t => s.runPart a t

/-- Tasks of the channel of `a`, one after the other: where the work stops, the rest is left. -/
def State.take (a : AxisId) (s : State) (ts : List Task) : State := ts.foldl (State.takeVia (State.run a) a) s

/-- The channel goes on with what is left of its piece of work. -/
def State.resume (s : State) (a : AxisId) : State :=
  (s.setChannel a { s.channel a with rest := [] }).take a (s.channel a).rest

/-- The channel ends its piece of work, without a stop, before other work of the axis (R57, R77). -/
def State.finish (s : State) (a : AxisId) : State := s.stopping [] (fun t => t.resume a)

/-- A step of an axis: its five parts in order (R58). -/
def State.beginStep (s : State) (a : AxisId) : State :=
  let x := s.axis a
  (if x.plan.wrap then s.beginWrap a x.plan.dir else s).take a (x.stepTasks (s.list a).toApply)

/-- Whether the channel of an axis has stopped within the application of a list. -/
def State.applying (s : State) (a : AxisId) : Bool := (s.channel a).rest.any (fun t => t matches .application _)

/-- An application in progress on an axis is ended with the piece of work it is in: against the list and the order of the
axis it is one claim (R120), and a wrap part is one claim with its position part against the axis record (R62). -/
def State.endApplying (s : State) (a : AxisId) : State := if s.applying a then s.finish a else s

/-- The applications in progress are ended. -/
def State.endAllApplying (s : State) : State := axisIds.foldl State.endApplying s

/-! ### The events -/

/-- STEP (R58): the channel of an axis goes on with the piece of work it has in progress (R57, log entry 13). With none,
the channel of a RUNNING or HALTING axis takes one count from a backlog that is not 0; in any other state of the axis there
is no step (log entry 2). -/
def execStep (turn : ChannelTurn) (s : State) : Host.Outcome State Fault Refusal :=
  let a := turn.axis
  if s.busy a then .next (s.stopping turn.stops (fun t => t.resume a))
  else if (s.axis a).stepping ∧ (s.axis a).backlog ≠ 0 then .next (s.stopping turn.stops (fun t => t.beginStep a))
  else .next s

/-- PULSE_EXPIRY (R80, R81): a running timer expires no earlier than its duration after the fire and less than 1 µs
later, so in the whole microsecond of its duration; the PULSE entry becomes IDLE and its output's pulse count goes down.
At another time, and for an entry with no running timer, there is no expiry (log entry 2). -/
def execPulseExpiry (h : Fin 512) (elapsed : Nat) (s : State) : Host.Outcome State Fault Refusal :=
  match s.slot h with
  | .live _ _ ⟨.active (some duration), _, _⟩ => if elapsed = duration then .next (s.endActivity h) else .next s
  | _ => .next s

/-- AXIS_SILENT_END (R79): the channel takes the silent end that a fault has left waiting for it, after the work it has in
progress (R57); with none waiting there is no such event. -/
def execAxisSilentEnd (a : AxisId) (s : State) : Host.Outcome State Fault Refusal :=
  if (s.axis a).silentDue then .next ((s.finish a).silenceAxis a) else .next s

end Sys2Proof.Machine
end

