-- ==== Sys2Proof/Machine/AxisFaults.lean ====
section
/-! DEFINITION. Axis faults (R55), and the counts that can raise them (R50). -/

namespace Sys2Proof.Machine

/-- The last fault field a cause leaves; a fence is no axis fault (R27). -/
def FaultCause.axisFault? : FaultCause → Option AxisFault
  | .entryCheck _ => none
  | .illegalTransition => some .illegalTransition
  | .indexMismatch _ => some .indexMismatch
  | .countOverrun => some .countOverrun

/-- The axis record after a fault (R55). -/
def Axis.fault (x : Axis) (cause : FaultCause) : Axis :=
  { x with
    state := .faulted
    backlog := 0
    remainder := 0
    referenced := x.referenced && x.source != .encoder
    lastFault := cause.axisFault? }

/-- The five claims in the order of R55. -/
def faultClaims : List FaultClaim := [.silentEnd, .applyList, .report, .attention, .safeState]

/-- Things listed in the order given first, each once, and then those of `all` that were not named. -/
def inTurn {α : Type} [BEq α] (given all : List α) : List α :=
  given.eraseDups ++ all.filter (fun x => !given.contains x)

/-- The Safe-State Controller takes an axis fault (R148). -/
def State.faultToSafeState (s : State) (a : AxisId) : State :=
  match (s.axis a).faultAction with
  | .safe => s.enterSafe
  | .passive => s.releaseAxis a

/-- One claim of a fault, on a state in which the axis record has been written. `tracked` is the tracked position
at the fault. The silent end and the application are work of the channel (R57, R119). -/
def State.faultClaim (a : AxisId) (cause : FaultCause) (tracked : Nat) (later : Bool) (s : State) :
    FaultClaim → State
  | .silentEnd => if later then s.setAxis a { s.axis a with silentDue := true } else s.take a [.silentEnd]
  | .applyList => s.take a [.application true]
  | .report => s.reportFault cause a tracked (s.axis a).revolution
  | .attention => s.latch reasonAxisChanged
  | .safeState => s.faultToSafeState a

/-- The fault of an axis whose channel has no work in progress: the axis record is written, and the neighbours' claims are
taken in the order given (R55, log entry 4). -/
def State.takeFault (s : State) (a : AxisId) (cause : FaultCause) (order : FaultOrder) : State :=
  (inTurn order.claims faultClaims).foldl (State.faultClaim a cause (s.axis a).tracked order.silentLater)
    (s.setAxis a ((s.axis a).fault cause))

/-- An axis fault. An axis that is not RUNNING takes none (R55, R56). A step in progress is ended first (log entry 13). -/
def State.axisFault (s : State) (a : AxisId) (cause : FaultCause) (order : FaultOrder) : State :=
  if (s.axis a).state = .running then
    (s.finish a).stopping order.stops (fun t => t.takeFault a cause order)
  else s

/-- Counts of a connected source, or an index correction, are added to the backlog in one claim; where they would
bring its magnitude to 1024 the axis faults with COUNT_OVERRUN instead (R50, R54). -/
def State.addCounts (s : State) (a : AxisId) (n : Int) (order : FaultOrder) : State :=
  let x := s.axis a
  if (x.backlog + n).natAbs ≤ Config.backlogLimit then s.setAxis a { x with backlog := x.backlog + n }
  else s.axisFault a .countOverrun order

end Sys2Proof.Machine
end

