-- ==== Sys2Proof/Machine/Work.lean ====
section
/-! DEFINITION. The work of a request beyond the step in which its block works (R180, R181): the claims of the fences its
reads provoke, the channel's work it asks for, and the items of a response that is made of several claims. -/

namespace Sys2Proof.Machine

/-! ### The outcomes of a block -/

/-- A block's answer with a status and a payload, and nothing more at the completion. -/
abbrev replied (status : Status) (payload : List Byte) : Work := .ready status payload .nothing

/-- A refusal, or a DONE with an empty payload (R180). -/
abbrev bare (status : Status) : Work := .ready status [] .nothing

/-- A block that has claims of fences still to take (R160, R161). -/
abbrev claimed (claims : List Task) (next : Next) : Work := .claiming claims next []

/-- A block whose response is made of items that are claims of their own (R184, R102). -/
abbrev sampled (items : List ReadItem) : Work := .sampling items items [] []

/-- A block that completes DONE once the channel of `a` has done the work it was asked for (R77, R181). -/
def State.served (s : State) (a : AxisId) : State × Work :=
  (s.takeParts a [.served], .channel a (.reply .done []) [])

/-- Whether the channel of an axis is still at the work that the executing request has asked of it. -/
def State.serving (s : State) (a : AxisId) : Bool := (s.channel a).rest.contains .served

/-! ### The list answer -/

/-- The list answer (R115, R192). `counts` are the items applied and the items dropped where this request has applied the
list; `handle`, `slotState` and `removed` are 0 where the request gives none. -/
def State.listAnswer (s : State) (a : AxisId) (counts : Option (Nat × Nat)) (handle : Nat) (slotState : Byte)
    (removed : Nat) : List Byte :=
  let l := s.list a
  let n := counts.getD (0, 0)
  [byteOf a, byteOf l.items.length, boolByte l.closed, l.change, boolByte counts.isSome, byteOf n.1, byteOf n.2]
    ++ bytesOf 2 handle ++ [slotState, byteOf removed]

/-- The slot state that a list answer gives: that of the handle after a RETIRE (R115). -/
def State.slotStateByte (s : State) (handle : Nat) (retired : Bool) : Byte :=
  if retired then (s.slot handle).lifecycle.code else 0#8

/-- Whether the entry an item names is FENCED: after the application, the item was dropped by it (R120). -/
def State.fencedBy (s : State) (i : Item) : Bool := i.handle?.any (fun h => (s.slot h).lifecycle == .fenced)

/-! ### The items of a response -/

/-- The number of STAGED, LIVE and FENCED entries that target an output (R102). -/
def State.targeting (s : State) (o : OutId) : Nat :=
  handles.countP (fun h => (s.slot h).inService (Entry.targets o))

/-- Whether a slot is FENCED with an entry that targets an output (R101). -/
def Slot.fencedOn (o : OutId) : Slot → Bool
  | .fenced e _ _ => e.targets o
  | _ => false

/-- The number of FENCED entries that target an output (R102). -/
def State.fencedTargeting (s : State) (o : OutId) : Nat := handles.countP (fun h => (s.slot h).fencedOn o)

/-- The bytes of one item of READ_STATUS or READ_OUTPUT (R184, R102, R192). -/
def State.readItem (s : State) : ReadItem → List Byte
  | .condition => [s.condition.code]
  | .attention => [s.latched.setWidth 8, s.mask.setWidth 8]
  | .members => bytesOf 2 s.notifySet.length
  | .report => [boolByte s.report.isSome]
  | .slots =>
    bytesOf 2 (s.countIn .free) ++ bytesOf 2 (s.countIn .staged) ++ bytesOf 2 (s.countIn .live)
      ++ bytesOf 2 (s.countIn .unread) ++ bytesOf 2 (s.countIn .fenced) ++ bytesOf 2 (s.countIn .disabled)
  | .axis a => [(s.axis a).state.code]
  | .silicon => [Config.familyCode, Config.siliconRevision]
  | .output o =>
    let x := s.output o
    [byteOf o, bindingByte x.binding, x.drive.code, x.polarity.code, x.safeLevel.code, boolByte x.toggleInitial,
        x.mode.code]
      ++ signedBytesOf 2 x.lead ++ bytesOf 2 x.windowCount ++ bytesOf 2 x.pulseCount
      ++ [boolByte x.latch, boolByte x.safeHold, boolByte x.faultHold, boolByte x.held, boolByte x.computed,
          boolByte (s.pinLevel o)]
  | .targets o => bytesOf 2 (s.targeting o) ++ bytesOf 2 (s.fencedTargeting o)

/-- The payload made of the items asked for, each as it was taken. -/
def payloadOf (asked : List ReadItem) (taken : List (ReadItem × List Byte)) : List Byte :=
  (asked.map (fun i => (taken.lookup i).getD [])).flatten

/-! ### Claims up to a stop -/

/-- The claims of a request's fences, one after the other, up to one before which the work stops: the state, and the claims
that are left (R160). -/
def State.takeClaims (s : State) : List Task → State × List Task
  | [] => (s, [])
  | t :: rest => if t.stop?.any (fun p => s.stops.contains p) then (s, t :: rest) else (s.runClaim t).takeClaims rest

/-- The items of a response, one after the other, up to one before which the work stops: the items left, and those taken
(R184). -/
def State.takeItemsOf (s : State) (taken : List (ReadItem × List Byte)) :
    List ReadItem → List ReadItem × List (ReadItem × List Byte)
  | [] => ([], taken)
  | i :: rest =>
    if s.stops.contains (.item i) then (i :: rest, taken) else s.takeItemsOf (taken ++ [(i, s.readItem i)]) rest

/-! ### How the work of a request goes on -/

/-- RETIRE of a FENCED entry, carried out at once; the lists are not touched (R111). -/
def State.retireFenced (s : State) (h : Nat) : State × Work :=
  match s.slot h with
  | .fenced e ok log =>
    let t := s.setSlot h (retiredSlot e ok log)
    (t, replied .done (t.listAnswer e.axis none h (t.slotStateByte h true) 0))
  | _ => (s, bare .noSuchEntry)

/-- The request that waited for the channel of `a` goes on, unless the channel is still at its work. -/
def State.repliesAfter (s : State) (a : AxisId) (status : Status) (payload : List Byte) : State × Work :=
  (s, if s.serving a then .channel a (.reply status payload) s.stops else replied status payload)

/-- The list that a request has closed has been applied: its applied entries are settled, and the list answer, which the
application fixes, follows (R115, R117). -/
def State.settleClosed (s : State) (a : AxisId) (items : List Item) (h : Nat) (retired : Bool) : State × Work :=
  let dropped := items.countP s.fencedBy
  let answer := s.listAnswer a (some (items.length - dropped, dropped)) h (s.slotStateByte h retired) 0
  (s.takeParts a [.settleApplied items, .served]).repliesAfter a .done answer

/-- What the request does once the claims it waited for are taken. -/
def State.proceed (s : State) : Next → State × Work
  | .reply status payload => (s, replied status payload)
  | .retire h => s.retireFenced h
  | .closed a items h retired => s.settleClosed a items h retired

/-- The claims of a request's work are taken, up to one before which it stops, and then it goes on. -/
def State.goOn (s : State) : Work → State × Work
  | .claiming rest next _ =>
    match s.takeClaims rest with
    | (t, []) => t.proceed next
    | (t, left) => (t, .claiming left next s.stops)
  | .channel a next _ => if s.serving a then (s, .channel a next s.stops) else s.proceed next
  | .sampling asked rest taken _ =>
    match s.takeItemsOf taken rest with
    | ([], taken) => (s, replied .done (payloadOf asked taken))
    | (left, taken) => (s, .sampling asked left taken s.stops)
  | w => (s, w)

/-- The items of a response are taken in another order (R184). -/
def Work.inOrder (order : List ReadItem) : Work → Work
  | .sampling asked rest taken stops =>
    .sampling asked (inTurn (order.filter rest.contains) rest) taken stops
  | w => w

/-- A request that has stopped takes the claim it has stopped before, or has its channel's work ended, and goes on under
its own stops; other work stands. -/
def State.resumeWork (s : State) : Work → State × Work
  | .claiming (t :: rest) next stops => ({ s.runClaim t with stops := stops }).goOn (.claiming rest next stops)
  | .claiming [] next stops => ({ s with stops := stops }).goOn (.claiming [] next stops)
  | .channel a next stops =>
    ({ (if s.serving a then s.finish a else s) with stops := stops }).goOn (.channel a next stops)
  | .sampling asked (i :: rest) taken stops =>
    ({ s with stops := stops }).goOn (.sampling asked rest (taken ++ [(i, s.readItem i)]) stops)
  | .sampling asked [] taken stops => ({ s with stops := stops }).goOn (.sampling asked [] taken stops)
  | w => (s, w)

end Sys2Proof.Machine
end

