-- ==== Sys2Proof/Machine/Port.lean ====
section
/-! DEFINITION. The Request Port (chapter 9) and the device reset: outgoing frames, the judging of a request frame,
completion, break, poll and reset. Every request of the part goes through `State.request`. -/

namespace Sys2Proof.Machine

/-! ### The outgoing frame -/

/-- The rejected set byte, bit 7 saying whether the tag is present (R188). -/
def Rejected.byte (r : Rejected) (tagPresent : Bool) : Byte :=
  (if r.framing then 0x01#8 else 0#8) ||| (if r.crc then 0x02#8 else 0#8) ||| (if r.busy then 0x04#8 else 0#8)
    ||| (if tagPresent then 0x80#8 else 0#8)

/-- The tag, status and payload the port chooses at the falling edge of SEL (R173). -/
def Port.choice (p : Port) : Option Byte × Status × List Byte :=
  match p.state with
  | .executing r => (some r.tag, .inProgress, [])
  | .draining _ => (none, .inProgress, [])
  | .idle =>
    match p.slot with
    | some r => (some r.tag, r.status, r.payload)
    | none => (none, .none, [])

/-- The bytes an outgoing frame's CRC covers: tag, status, rejected set, attention summary, length, payload (R188). -/
def State.frameBody (s : State) : List Byte :=
  let c := s.port.choice
  [c.1.getD 0#8, c.2.1.code, s.port.rejected.byte c.1.isSome, s.summaryByte, byteOf c.2.2.length] ++ c.2.2

/-- The outgoing frame, with its CRC (R173, R188). -/
def State.outgoingFrame (s : State) : List Byte := s.frameBody ++ [crc8 s.frameBody]

/-- The byte that SDO shifts out at a place of the transaction: the frame's, then 00h; none is high impedance
(R171, R173, R185). -/
def Transaction.sdoByte : Transaction → Nat → Option Byte
  | .served frame, n => some (frame.getD n 0#8)
  | .closed, _ | .unserved, _ => none

/-! ### The two ends of a transaction -/

/-- Whether the transaction that ends now is judged: the port serves, and SEL did not fall before it did (R185). -/
def State.judges (s : State) : Bool := s.phase == .serving && s.transaction != .unserved

/-- SEL rises: the transaction is over and SDO is at high impedance (R171). -/
def State.endTransaction (s : State) : State := { s with transaction := .closed }

/-- OUTGOING_FRAME (R171, R173, R174, R185). Where SEL is high it falls: a serving port chooses its frame, and before the
service delay has ended the transaction is not served. Where SEL is low it rises after no whole byte: the transaction is
over, and nothing else (log entry 6). -/
def execOutgoingFrame (s : State) : Host.Outcome State Fault Refusal :=
  match s.transaction with
  | .closed => .next { s with transaction := if s.phase = .serving then .served s.outgoingFrame else .unserved }
  | .served _ | .unserved => .next s.endTransaction

/-! ### The incoming bytes -/

/-- What the checks of R177 make of a request frame. -/
inductive Judged where
  | framing
  | crc
  | frame (tag : Byte) (args : List Byte)
deriving DecidableEq, Repr

/-- The framing and CRC checks of a request frame, its bytes after the code given (R177): the length N is at most
60 and N+4 bytes are there in all, and the CRC covers code, tag, length and arguments. -/
def judgeFrame (code : Byte) (rest : List Byte) : Judged :=
  match rest with
  | tag :: len :: more =>
    if 60 < len.toNat ∨ more.length < len.toNat + 1 then .framing
    else
      let args := more.take len.toNat
      if more[len.toNat]? = some (crc8 (code :: tag :: len :: args)) then .frame tag args else .crc
  | _ => .framing

/-- FRAMING joins the rejected set (R177). -/
def State.rejectFraming (s : State) : State :=
  { s with port := { s.port with rejected := { s.port.rejected with framing := true } } }

/-- CRC joins the rejected set (R177). -/
def State.rejectCrc (s : State) : State :=
  { s with port := { s.port with rejected := { s.port.rejected with crc := true } } }

/-- BUSY joins the rejected set (R178). -/
def State.rejectBusy (s : State) : State :=
  { s with port := { s.port with rejected := { s.port.rejected with busy := true } } }

/-- The acceptance of a frame: the tag is taken, the rejected set and the slot are emptied, and the port is EXECUTING
(R178). -/
def State.accept (s : State) (code tag : Byte) (work : Work) : State :=
  { s with port := ⟨.executing ⟨code, tag, work⟩, none, some tag, ⟨false, false, false⟩⟩ }

/-- What a block does with the arguments of a request it is handed: the state it leaves and its outcome (R180). -/
abbrev Handler := List Byte → State → State × Work

/-- The request that executes or drains goes on with other work. -/
def PortState.withWork (p : PortState) (w : Work) : PortState :=
  match p with
  | .idle => .idle
  | .executing r => .executing { r with work := w }
  | .draining r => .draining { r with work := w }

/-- Whether a request neither changes nor reads out a slot, a list, the order of an axis or an axis record on its own, so
that it can be carried out while a channel has stopped within the application of a list (R120): NOP, READ_STATUS, the
attention requests, SET_OUTPUT_MODE, CLEAR_OUTPUT_FAULT, READ_OUTPUT, ENTER_SAFE, RELEASE_SAFE, and the fault report
requests. -/
def passesApplications (code : Byte) : Bool :=
  [0x01, 0x02, 0x03, 0x04, 0x21, 0x22, 0x23, 0x50, 0x51, 0x60, 0x61].contains code.toNat

/-- The request that executes or drains goes on with the outcome of its work, the port record as it was otherwise (R180). Its
choice of stop points stands for its own work alone. -/
def State.withOutcome (s : State) (done : State × Work) : State :=
  { done.1 with port := { s.port with state := s.port.state.withWork done.2 }, stops := s.stops }

/-- A block works on the arguments of the request that executes or drains, at its pace (R180, log entry 13). -/
def State.runBlock (s : State) (code : Byte) (block : Handler) (args : List Byte) (pace : Pace) : State :=
  let t := if passesApplications code then s else s.endAllApplying
  let answered := block args { t with stops := pace.stops }
  s.withOutcome (answered.1.goOn (answered.2.inOrder pace.order))

/-- An accepted request of known code and right length is handed to its block; other codes and lengths have their
outcome at once (R180). The block works in the step of the acceptance, or later where the pace says so (log entry 13). -/
def State.carryOut (s : State) (code tag : Byte) (args : List Byte) (pace : Pace) (block : Handler) (l : Lines) : State :=
  match argLength code with
  | none => s.accept code tag (bare .unknownRequest)
  | some n =>
    if args.length = n then
      let accepted := s.accept code tag (.waiting args l pace)
      if pace.workLater then accepted else accepted.runBlock code block args pace
    else s.accept code tag (bare .badLength)

/-- A request frame at the rising edge of SEL: framing, CRC, busy, duplicate, acceptance, in that order (R177, R178).
`l` are the levels a CONFIG_AXIS finds on its lines; no other request looks at them. -/
def State.request (s : State) (code : Byte) (rest : List Byte) (pace : Pace) (block : Handler)
    (l : Lines := ⟨false, false, false⟩) : State :=
  if s.judges then
    let t := s.endTransaction
    match judgeFrame code rest with
    | .framing => t.rejectFraming
    | .crc => t.rejectCrc
    | .frame tag args =>
      if t.port.state ≠ .idle then t.rejectBusy
      else if t.port.lastTag = some tag then t
      else t.carryOut code tag args pace block l
  else s.endTransaction

/-- POLL (R175): it changes no field of the port record; its transaction ends. -/
def execPoll (_rest : List Byte) (s : State) : Host.Outcome State Fault Refusal := .next s.endTransaction

/-- The port state after a break: EXECUTING becomes DRAINING (R176). -/
def PortState.afterBreak : PortState → PortState
  | .idle => .idle
  | .executing r => .draining r
  | .draining r => .draining r

/-- A break: the rejected set, the response slot and the last accepted tag are cleared; a request that executes runs
on (R176). -/
def State.takeBreak (s : State) : State :=
  if s.judges then { s.endTransaction with port := ⟨s.port.state.afterBreak, none, none, ⟨false, false, false⟩⟩ }
  else s.endTransaction

/-- BREAK (R176). -/
def execPortBreak (_rest : List Byte) (s : State) : Host.Outcome State Fault Refusal := .next s.takeBreak

/-! ### Completion -/

/-- What a completion does besides the slot: ACK_ATTENTION removes the named reasons (R139), SET_ATTENTION_MASK
replaces the mask (R140). -/
def State.completionEffect (s : State) : CompletionEffect → State
  | .nothing => s
  | .acknowledge r => { s with latched := s.latched &&& ~~~r }
  | .setMask m => { s with mask := m }

/-- The completion of a request whose outcome is in: in EXECUTING the response enters the slot with REQUEST_DONE set
(R142), and then the request's own effect is made (R139); in DRAINING the response is discarded (R179), and the effect is
made all the same (DEDUCED, log entry 17). -/
def State.complete (s : State) : State :=
  match s.port.state with
  | .executing ⟨_, tag, .ready status payload effect⟩ =>
    ({ s with port := { s.port with
      state := .idle
      slot := some ⟨tag, status, if status = Status.done then payload else []⟩ } }.latch reasonRequestDone).completionEffect
        effect
  | .draining ⟨_, _, .ready _ _ effect⟩ =>
    { s with port := { s.port with state := .idle, slot := none } }.completionEffect effect
  | _ => s

/-! ### Device reset -/

/-- A transaction that a device reset meets: it is not judged, and SDO is at high impedance for the rest of it
(R185). -/
def Transaction.afterReset : Transaction → Transaction
  | .closed => .closed
  | .served _ | .unserved => .unserved

/-- DEVICE_RESET (R6, R27, R32, R57, R85, R104, R130, R138, R144, R163, R172, R185): every block takes its reset
values, and the channels' work is abandoned; the waiting commands are not part of the device. -/
def execDeviceReset (s : State) : Host.Outcome State Fault Refusal :=
  .next { State.reset with transaction := s.transaction.afterReset, pending := s.pending }

/-- The recognized levels of the lines of every axis are loaded (R27). -/
def State.loadLines (s : State) (l : Vector Lines 4) : State :=
  { s with axes := s.axes.zipWith (fun x y => { x with lines := y }) l }

/-- END_OF_RESET (R103, R145, R156): the pins leave the forced drive, and the recognized levels are loaded from the
lines. It sets no attention reason. Out of a reset there is no such event. -/
def execEndOfReset (l : Vector Lines 4) (stopActive : Bool) (s : State) : Host.Outcome State Fault Refusal :=
  if s.phase = .held then .next ({ s with phase := .delay, stopActive := stopActive }.loadLines l) else .next s

/-- PORT_SERVICE_DELAY_END (R185): from now on transactions whose SEL falls are served. -/
def execPortServiceDelayEnd (s : State) : Host.Outcome State Fault Refusal :=
  if s.phase = .delay then .next { s with phase := .serving } else .next s

end Sys2Proof.Machine
end

