-- ==== Sys2Proof/Machine/Axes.lean ====
section
/-! DEFINITION. The axis requests (chapters 2.3 to 2.5): CONFIG_AXIS, RUN_AXIS, HALT_AXIS, SET_POSITION, MOVE_AXIS,
SET_RATE, READ_AXIS. -/

namespace Sys2Proof.Machine

/-! ### CONFIG_AXIS -/

/-- Whether an axis has a dependent: an entry of it that is STAGED, LIVE, UNREAD or FENCED, or an output bound to it
(R33). -/
def State.axisHasDependents (s : State) (a : AxisId) : Bool :=
  handles.any (fun h => (s.slot h).entry?.any (fun e => e.axis == a)) || s.outputs.toList.any (fun x => x.binding == some a)

/-- The configuration fields take the values of the request (R34, R35). -/
def Axis.configure (x : Axis) (c : AxisConfig) : Axis :=
  { x with
    source := c.source
    modulus := c.modulus
    indexPoint := c.indexPoint
    tolerance := c.tolerance
    invert := c.invert
    filter := c.filter
    faultAction := c.faultAction }

/-- First configuration: the axis becomes HALTED at position 0, and its recognized levels are those the lines show;
the rate keeps its value (R34). -/
def Axis.firstConfigured (x : Axis) (c : AxisConfig) (l : Lines) : Axis :=
  { x.configure c with
    state := .halted
    position := 0
    revolution := 0#16
    referenced := c.source != .encoder
    backlog := 0
    remainder := 0
    corrections := 0
    lastFault := none
    lines := l }

/-- A HALTED axis without dependents takes another modulus (R36). -/
def Axis.remodulused (x : Axis) (c : AxisConfig) : Axis :=
  { x.configure c with
    position := 0
    revolution := 0#16
    corrections := 0
    referenced := c.source != .encoder }

/-- A HALTED axis without dependents goes OFF; the configuration fields and the rate keep their values (R36). -/
def Axis.switchedOff (x : Axis) : Axis :=
  { x with
    state := .off
    position := 0
    revolution := 0#16
    referenced := false
    backlog := 0
    remainder := 0
    corrections := 0
    lastFault := none }

/-- A HALTED axis is configured again with its present modulus: the reference and the entries follow the change of
source (R35). -/
def State.reconfigure (s : State) (a : AxisId) (c : AxisConfig) : State :=
  let x := s.axis a
  match decide (x.source = .encoder), decide (c.source = .encoder) with
  | true, false => (s.setAxis a { x.configure c with referenced := true, corrections := 0 }).settleWindows a
  | false, true => (s.setAxis a { x.configure c with referenced := false }).silenceAxis a
  | _, _ => s.setAxis a (x.configure c)

/-- CONFIG_AXIS with the CONFIGURE choice (R33 to R36). -/
def State.configAxis (s : State) (a : AxisId) (c : AxisConfig) (l : Lines) : State × Work :=
  let x := s.axis a
  match x.state with
  | .running | .halting | .faulted => (s, bare .wrongState)
  | .off => (s.setAxis a (x.firstConfigured c l), bare .done)
  | .halted =>
    if c.modulus = x.modulus then ((s.finish a).reconfigure a c).served a
    else if s.axisHasDependents a then (s, bare .hasDependents)
    else (s.setAxis a (x.remodulused c), bare .done)

/-- CONFIG_AXIS with the OFF choice (R33, R34, R36). -/
def State.switchAxisOff (s : State) (a : AxisId) : State × Work :=
  let x := s.axis a
  match x.state with
  | .running | .halting | .faulted => (s, bare .wrongState)
  | .off => (s, bare .done)
  | .halted =>
    if s.axisHasDependents a then (s, bare .hasDependents) else (s.setAxis a x.switchedOff, bare .done)

/-- CONFIG_AXIS (R33). -/
def configAxisBlock (l : Lines) : Handler := fun args s =>
  match decodeConfigAxis args with
  | none => (s, bare .badValue)
  | some (a, some c) => s.configAxis a c l
  | some (a, none) => s.switchAxisOff a

/-- CONFIG_AXIS (R33). -/
def execConfigAxis (sent : Sent) (l : Lines) (s : State) : Host.Outcome State Fault Refusal :=
  .next (s.request 0x10#8 sent.rest sent.pace (configAxisBlock l) l)

/-! ### Running and halting -/

/-- RUN_AXIS (R37). -/
def State.runAxis (s : State) (a : AxisId) : State × Work :=
  match (s.axis a).state with
  | .halted => (s.setAxis a { s.axis a with state := .running }, bare .done)
  | .running => (s, bare .done)
  | .off | .halting | .faulted => (s, bare .wrongState)

/-- RUN_AXIS (R37): an axis number above 3 is refused with BAD_VALUE (R187). -/
def runAxisBlock : Handler := fun args s =>
  match axisOf (natAt args 0 1) with
  | none => (s, bare .badValue)
  | some a => s.runAxis a

/-- RUN_AXIS (R37). -/
def execRunAxis (sent : Sent) (s : State) : Host.Outcome State Fault Refusal :=
  .next (s.request 0x11#8 sent.rest sent.pace runAxisBlock)

/-- A silent end that a fault has left waiting is taken before the channel's next work (R57, log entry 11). -/
def State.takeSilentDue (s : State) (a : AxisId) : State :=
  if (s.axis a).silentDue then s.silenceAxis a else s

/-- A FAULTED axis is halted: it becomes HALTED, the windows of a REFERENCED axis are settled, and the release is
handed over (R40, R152). -/
def State.haltFaulted (s : State) (a : AxisId) : State :=
  let taken := (s.finish a).takeSilentDue a
  ((taken.setAxis a { taken.axis a with state := .halted }).settleWindows a).takeParts a [.release]

/-- HALT_AXIS (R38, R40). -/
def State.haltAxis (s : State) (a : AxisId) : State × Work :=
  match (s.axis a).state with
  | .running =>
    let ended := s.finish a
    let halting := ended.setAxis a { ended.axis a with state := .halting, remainder := 0 }
    if (ended.axis a).backlog = 0 then (halting.reachHalted a).served a else (halting, .halting a)
  | .faulted => (s.haltFaulted a).served a
  | .halted => (s, bare .done)
  | .off | .halting => (s, bare .wrongState)

/-- HALT_AXIS (R38): an axis number above 3 is refused with BAD_VALUE (R187). -/
def haltAxisBlock : Handler := fun args s =>
  match axisOf (natAt args 0 1) with
  | none => (s, bare .badValue)
  | some a => s.haltAxis a

/-- HALT_AXIS (R38). -/
def execHaltAxis (sent : Sent) (s : State) : Host.Outcome State Fault Refusal :=
  .next (s.request 0x12#8 sent.rest sent.pace haltAxisBlock)

/-! ### Position, moves and rate -/

/-- SET_POSITION of an axis (R41): the jump is taken when the work in progress on the axis is complete (R77). -/
def State.setPosition (s : State) (a : AxisId) (value : Nat) : State × Work :=
  match (s.axis a).state with
  | .off | .halting | .faulted => (s, bare .wrongState)
  | .halted | .running =>
    if value < (s.axis a).modulus then ((s.finish a).jumpTo a value).served a else (s, bare .badValue)

/-- SET_POSITION (R41). -/
def setPositionBlock : Handler := fun args s =>
  match axisOf (natAt args 0 1) with
  | none => (s, bare .badValue)
  | some a => s.setPosition a (natAt args 1 2)

/-- SET_POSITION (R41). -/
def execSetPosition (sent : Sent) (s : State) : Host.Outcome State Fault Refusal :=
  .next (s.request 0x13#8 sent.rest sent.pace setPositionBlock)

/-- The count of a MOVE_AXIS: from −1023 to +1023 and not 0 (R42). -/
def moveCountOf (v : Int) : Option Int := if v = 0 then none else withinInt (-1023) 1023 v

/-- MOVE_AXIS of an axis (R42). -/
def State.moveAxis (s : State) (a : AxisId) (n : Int) : State × Work :=
  let x := s.axis a
  if x.source = .stepped ∧ x.state = .running then
    if (x.backlog + n).natAbs ≤ Config.backlogLimit then
      (s.setAxis a { x with backlog := x.backlog + n }, bare .done)
    else (s, bare .backlogFull)
  else (s, bare .wrongState)

/-- MOVE_AXIS (R42). -/
def moveAxisBlock : Handler := fun args s =>
  match axisOf (natAt args 0 1), moveCountOf (intAt args 1 2) with
  | some a, some n => s.moveAxis a n
  | _, _ => (s, bare .badValue)

/-- MOVE_AXIS (R42). -/
def execMoveAxis (sent : Sent) (s : State) : Host.Outcome State Fault Refusal :=
  .next (s.request 0x14#8 sent.rest sent.pace moveAxisBlock)

/-- SET_RATE of an axis (R43). -/
def State.setRate (s : State) (a : AxisId) (rate : Int) : State × Work :=
  let x := s.axis a
  if x.source = .rate ∧ (x.state = .halted ∨ x.state = .running ∨ x.state = .faulted) then
    (s.setAxis a { x with rate := rate }, bare .done)
  else (s, bare .wrongState)

/-- SET_RATE (R43). -/
def setRateBlock : Handler := fun args s =>
  match axisOf (natAt args 0 1), withinInt (-500000) 500000 (intAt args 1 4) with
  | some a, some r => s.setRate a r
  | _, _ => (s, bare .badValue)

/-- SET_RATE (R43). -/
def execSetRate (sent : Sent) (s : State) : Host.Outcome State Fault Refusal :=
  .next (s.request 0x15#8 sent.rest sent.pace setRateBlock)

/-! ### READ_AXIS -/

/-- The recognized lines byte (R192). Bits 3 to 7, which R192 does not name, are 0 (DESIGN CHOICE, log entry 19). -/
def linesByte (l : Lines) : Byte :=
  (if l.a then 1#8 else 0#8) ||| (if l.b then 2#8 else 0#8) ||| (if l.z then 4#8 else 0#8)

/-- The READ_AXIS payload (R44, R192). -/
def Axis.payload (x : Axis) : List Byte :=
  [x.state.code, x.source.code] ++ bytesOf 3 x.modulus ++ bytesOf 2 x.position ++ bytesOf 2 x.revolution.toNat
    ++ [boolByte x.referenced, boolByte x.indexPoint.isSome] ++ bytesOf 2 (x.indexPoint.getD 0)
    ++ [x.tolerance, boolByte x.invert, x.filter, x.faultAction.code]
    ++ signedBytesOf 4 x.rate ++ signedBytesOf 2 x.remainder ++ signedBytesOf 2 x.backlog
    ++ [byteOf x.corrections, lastFaultCode x.lastFault] ++ bytesOf 2 x.tracked ++ [linesByte x.lines]

/-- READ_AXIS changes no field (R44). -/
def readAxisBlock : Handler := fun args s =>
  match axisOf (natAt args 0 1) with
  | none => (s, bare .badValue)
  | some a => (s, replied .done (s.axis a).payload)

/-- READ_AXIS (R44). -/
def execReadAxis (sent : Sent) (s : State) : Host.Outcome State Fault Refusal :=
  .next (s.request 0x16#8 sent.rest sent.pace readAxisBlock)

end Sys2Proof.Machine
end

