-- ==== Sys2Proof/Machine/Diagnostics.lean ====
section
/-! DEFINITION. The requests of the Integrity Unit and the disturbance of its memory (chapter 8): READ_FAULT_REPORT,
CLEAR_FAULT_REPORT, TABLE_TEST, TABLE_TEST_VISIT, SPOIL_CHECK, MEMORY_DISTURBANCE. -/

namespace Sys2Proof.Machine

/-! ### The fault report -/

/-- The handle field of a report: present for ENTRY_CHECK (R163). -/
def FaultCause.handle? : FaultCause → Option Nat
  | .entryCheck h => some h
  | _ => none

/-- The deviation field of a report: present for INDEX_MISMATCH (R163). -/
def FaultCause.deviation? : FaultCause → Option Int
  | .indexMismatch d => some d
  | _ => none

/-- The READ_FAULT_REPORT payload; while invalid every field but valid is absent (R163, R192). The bytes of an absent
field for which R190 states no byte are 00h (DESIGN CHOICE, log entry 15), and so are bits 5 to 7 of the presence byte,
which R192 does not name (DESIGN CHOICE, log entry 19). -/
def reportPayload : Option Report → List Byte
  | none => List.replicate 15 0#8
  | some r =>
    [1#8, r.cause.code,
        byteOf (1 + (if r.cause.handle?.isSome then 2 else 0) + 4 + (if r.cause.deviation?.isSome then 8 else 0) + 16),
        byteOf r.axis]
      ++ bytesOf 2 (r.cause.handle?.getD 0) ++ bytesOf 2 r.position
      ++ signedBytesOf 4 (r.cause.deviation?.getD 0) ++ bytesOf 2 r.revolution.toNat ++ [byteOf r.further]

/-- READ_FAULT_REPORT changes nothing (R165). -/
def readFaultReportBlock : Handler := fun _ s => (s, replied .done (reportPayload s.report))

/-- READ_FAULT_REPORT (R165). -/
def execReadFaultReport (sent : Sent) (s : State) : Host.Outcome State Fault Refusal :=
  .next (s.request 0x60#8 sent.rest sent.pace readFaultReportBlock)

/-- CLEAR_FAULT_REPORT makes the report invalid (R166). -/
def clearFaultReportBlock : Handler := fun _ s => ({ s with report := none }, bare .done)

/-- CLEAR_FAULT_REPORT (R166). -/
def execClearFaultReport (sent : Sent) (s : State) : Host.Outcome State Fault Refusal :=
  .next (s.request 0x61#8 sent.rest sent.pace clearFaultReportBlock)

/-! ### SPOIL_CHECK and disturbances -/

/-- SPOIL_CHECK of a handle: the check value of a LIVE entry becomes inconsistent (R167). -/
def State.spoilCheck (s : State) (h : Nat) : State × Work :=
  match s.slot h with
  | .live e ok r => (s.setSlot h (Slot.live e ok r).spoiled, replied .done (bytesOf 2 h ++ [byteOf e.axis]))
  | _ => (s, bare .noSuchEntry)

/-- SPOIL_CHECK (R167). -/
def spoilCheckBlock : Handler := fun args s =>
  match handleOf (natAt args 0 2) with
  | none => (s, bare .badValue)
  | some h => s.spoilCheck h

/-- SPOIL_CHECK (R167). -/
def execSpoilCheck (sent : Sent) (s : State) : Host.Outcome State Fault Refusal :=
  .next (s.request 0x63#8 sent.rest sent.pace spoilCheckBlock)

/-- MEMORY_DISTURBANCE (R158): the check value of a slot that holds a record becomes inconsistent, and every field
stays as it was. -/
def execMemoryDisturbance (h : Fin 512) (s : State) : Host.Outcome State Fault Refusal :=
  .next (s.setSlot h (s.slot h).spoiled)

/-! ### The table test -/

/-- Whether a slot is in the visit set of a TABLE_TEST (R168). -/
def Slot.toVisit (restore : Bool) : Slot → Bool
  | .free => true
  | .disabled => restore
  | _ => false

/-- The TABLE_TEST payload: slots visited, newly disabled, restored, DISABLED in all (R170, R192). -/
def State.testPayload (s : State) (t : TestRun) : List Byte :=
  bytesOf 2 t.visited ++ bytesOf 2 t.disabled ++ bytesOf 2 t.restored ++ bytesOf 2 (s.countIn .disabled)

/-- A TABLE_TEST with slots left to visit runs on; without it has its outcome (R169, R170). -/
def State.testWork (s : State) (t : TestRun) : Work :=
  if t.remaining.isEmpty then replied .done (s.testPayload t) else .testing t

/-- The visit set of a TABLE_TEST, in ascending handle order (R168). -/
def State.visitSet (s : State) (restore : Bool) : List Nat := handles.filter (fun h => (s.slot h).toVisit restore)

/-- TABLE_TEST: the visit set is fixed (R168). -/
def tableTestBlock : Handler := fun args s =>
  match boolOf (natAt args 0 1) with
  | none => (s, bare .badValue)
  | some restore => (s, s.testWork ⟨s.visitSet restore, 0, 0, 0⟩)

/-- TABLE_TEST (R168). -/
def execTableTest (sent : Sent) (s : State) : Host.Outcome State Fault Refusal :=
  .next (s.request 0x62#8 sent.rest sent.pace tableTestBlock)

/-- A slot of the visit set after its visit, by the outcome; a visit disturbs no other slot (R168). -/
def Slot.visited (v : Slot) (passes : Bool) : Slot :=
  if v.toVisit true then (if passes then .free else .disabled) else v

/-- The counts of a test after a visit of a slot (R170). -/
def TestRun.count (t : TestRun) (v : Slot) (rest : List Nat) (passes : Bool) : TestRun :=
  { remaining := rest
    visited := t.visited + 1
    disabled := if v = .free ∧ passes = false then t.disabled + 1 else t.disabled
    restored := if v = .disabled ∧ passes then t.restored + 1 else t.restored }

/-- One visit of the slot `h` of a running test (R168). -/
def State.visit (s : State) (t : TestRun) (h : Nat) (rest : List Nat) (passes : Bool) : State :=
  let moved := s.setSlot h ((s.slot h).visited passes)
  { moved with port := { moved.port with
    state := moved.port.state.withWork (moved.testWork (t.count (s.slot h) rest passes)) } }

/-- TABLE_TEST_VISIT (R168): the next slot of the visit set of the test that the port executes or drains. Without a
running test there is no visit. -/
def execTableTestVisit (passes : Bool) (s : State) : Host.Outcome State Fault Refusal :=
  match s.port.state.work? with
  | some (.testing ⟨h :: rest, visited, disabled, restored⟩) =>
    .next (s.visit ⟨h :: rest, visited, disabled, restored⟩ h rest passes)
  | _ => .next s

end Sys2Proof.Machine
end

