-- ==== Sys2Proof/Machine/Edits.lean ====
section
/-! DEFINITION. The requests of the Edit Lists (chapter 5): PLACE, ALTER, RETIRE, SET_LEAD, CLOSE_LIST, DISCARD,
READ_PENDING. The checks of an edit are those of R107, in its order. -/

namespace Sys2Proof.Machine

/-! ### Closing -/

/-- Whether a close on this axis is followed at once by application: it is HALTED or FAULTED (R117). -/
def Axis.appliesOnClose (x : Axis) : Bool := x.state == .halted || x.state == .faulted

/-- The list of an axis takes new items in one claim, which raises the change number by one and with close-after
closes a list that holds an item (R104, R116). -/
def State.takeItems (s : State) (a : AxisId) (items : List Item) (close : Bool) : State :=
  s.setList a ⟨items, close && !items.isEmpty, (s.list a).change + 1#8⟩

/-- The end of an edit that has passed its checks, or of a close: a list that has just been closed on a HALTED or FAULTED
axis is applied at once by the axis's channel, without BATCH_APPLIED, and on another axis it waits (R117, R119). The list
answer gives `handle`, and the state of its slot where `retired`. -/
def State.closes (s : State) (a : AxisId) (handle : Nat) (retired : Bool) : State × Work :=
  if (s.axis a).appliesOnClose ∧ (s.list a).closed then
    ((s.finish a).takeParts a [.application false, .served], .channel a (.closed a (s.list a).items handle retired) [])
  else (s, replied .done (s.listAnswer a none handle (s.slotStateByte handle retired) 0))

/-! ### The checks that look at the post-state -/

/-- The lead an output will have once the list of an axis is applied (R19, R113). -/
def State.leadAfter (s : State) (a : AxisId) (o : OutId) : Int :=
  ((s.list a).leadOf o).getD (s.output o).lead

/-- Whether an entry is a once-per-revolution WINDOW that spans the wrap point under a lead of its output (R20,
R113). -/
def Entry.spansUnder (e : Entry) (modulus : Nat) (lead : OutId → Int) : Bool :=
  match e.action with
  | .window o off =>
    e.oncePerRev && spansWrap (effectivePoint modulus (lead o) e.on) (effectivePoint modulus (lead o) off)
  | _ => false

/-- Whether an entry would span the wrap point in the post-state of its axis (R113). -/
def State.wouldSpan (s : State) (e : Entry) : Bool :=
  e.spansUnder (s.axis e.axis).modulus (s.leadAfter e.axis)

/-- The entry a slot will hold once its list is applied, if it will be STAGED or LIVE: a STAGED entry its staged
values, a LIVE entry without a RETIRE item the values of its ALTER item where it has one (R113). -/
def State.entryAfter (s : State) (h : Nat) : Option Entry :=
  match s.slot h with
  | .staged e _ => some e
  | .live e _ _ =>
    match (s.list e.axis).itemOf h with
    | some (.retire _) => none
    | some (.alter _ v) => some (v.writeTo e)
    | _ => some e
  | _ => none

/-- Whether the drive type of an output fits the kind of an entry (R7, R108). -/
def DriveType.fits : DriveType → Kind → Bool
  | .level, .window | .level, .pulse | .toggle, .toggle => true
  | _, _ => false

/-- Whether the output of an entry fits its axis and kind; a MARK has none (R108, check 6). -/
def State.outputFits (s : State) (e : Entry) : Bool :=
  match e.output with
  | some o => (s.output o).binding == some e.axis && (s.output o).drive.fits e.kind
  | none => true

/-- Whether the points of an entry are below the modulus of its axis, and those of a WINDOW differ (R108, R109). -/
def Entry.pointsFit (e : Entry) (modulus : Nat) : Bool :=
  decide (e.on < modulus) && e.off?.all (fun off => decide (off < modulus) && off != e.on)

/-! ### PLACE -/

/-- PLACE, its arguments decoded: checks 3 to 10 of R107, then the slot, the item and the close (R108, R116). -/
def State.place (s : State) (e : Entry) (close : Bool) : State × Work :=
  let x := s.axis e.axis
  let l := s.list e.axis
  if x.state = .off then (s, bare .wrongState)
  else if l.closed then (s, bare .listSealed)
  else if !s.outputFits e then (s, bare .mismatch)
  else if !e.pointsFit x.modulus then (s, bare .badValue)
  else if s.wouldSpan e then (s, bare .spansWrap)
  else if Config.listCapacity ≤ l.items.length then (s, bare .listFull)
  else match s.lowestFree with
    | none => (s, bare .noSlot)
    | some h => ((s.setSlot h (.staged e true)).takeItems e.axis (l.items ++ [.place h]) close).closes e.axis h false

/-- PLACE (R108). -/
def placeBlock : Handler := fun args s =>
  match decodePlace args with
  | none => (s, bare .badValue)
  | some (e, close) => s.place e close

/-- PLACE (R108). -/
def execPlace (sent : Sent) (s : State) : Host.Outcome State Fault Refusal :=
  .next (s.request 0x30#8 sent.rest sent.pace placeBlock)

/-! ### ALTER -/

/-- Whether an ALTER gives a value for a field that the kind of an entry does not carry (R8, R109). -/
def AlterValues.alien (v : AlterValues) (e : Entry) : Bool :=
  (v.off.isSome && e.off?.isNone) || (v.duration.isSome && e.duration?.isNone)
    || (v.qualifier.isSome && e.qualifier?.isNone)

/-- The values of a new ALTER over those an item holds: each value present replaces the held one (R114). -/
def AlterValues.mergeOver (new held : AlterValues) : AlterValues :=
  { on := new.on.or held.on
    off := new.off.or held.off
    duration := new.duration.or held.duration
    qualifier := new.qualifier.or held.qualifier
    oncePerRev := new.oncePerRev.or held.oncePerRev
    notify := new.notify.or held.notify
    label := new.label.or held.label }

/-- A notify value present for a MARK is taken as yes (R109). -/
def AlterValues.forEntry (v : AlterValues) (e : Entry) : AlterValues :=
  if e.kind = .mark then { v with notify := v.notify.map (fun _ => true) } else v

/-- The points an ALTER gives are below the modulus, and those of a WINDOW differ after it (R109, check 7). -/
def AlterValues.pointsFit (v : AlterValues) (after : Entry) (modulus : Nat) : Bool :=
  v.on.all (fun p => decide (p < modulus)) && v.off.all (fun p => decide (p < modulus))
    && after.off?.all (fun off => off != after.on)

/-- Checks 3 to 5 of R107 for an edit that names a handle of a STAGED or LIVE entry: the status of the first that
fails. -/
def State.handleEditRefusal (s : State) (h : Nat) (e : Entry) : Option Status :=
  if (s.axis e.axis).state = .off then some .wrongState
  else if (s.list e.axis).closed then some .listSealed
  else match (s.list e.axis).itemOf h with
    | some (.retire _) => some .entryRetiring
    | _ => none

/-- An item in the place of the one that names a handle (R114). -/
def PendingList.replaceFor (l : PendingList) (h : Nat) (i : Item) : List Item :=
  l.items.map (fun j => if j.names h then i else j)

/-- The end of an edit that has passed its checks: its items are taken, with the close, and the list answer is
given. -/
def State.finishEdit (s : State) (a : AxisId) (items : List Item) (close : Bool) : State × Work :=
  (s.takeItems a items close).closes a 0 false

/-- ALTER of a STAGED entry, which has been read: checks 3 to 8, then the merge into its PLACE item (R109, R114). -/
def State.alterStaged (s : State) (h : Nat) (e : Entry) (v : AlterValues) (close : Bool) : State × Work :=
  match s.handleEditRefusal h e with
  | some status => (s, bare status)
  | none =>
    if v.alien e || !v.pointsFit (v.writeTo e) (s.axis e.axis).modulus then (s, bare .badValue)
    else if s.wouldSpan (v.writeTo e) then (s, bare .spansWrap)
    else (s.setSlot h (.staged (v.writeTo e) true)).finishEdit e.axis (s.list e.axis).items close

/-- ALTER of a LIVE entry, which has been read: checks 3 to 9, then the merge with its ALTER item or a new item
(R109, R114). -/
def State.alterLive (s : State) (h : Nat) (e : Entry) (v : AlterValues) (close : Bool) : State × Work :=
  match s.handleEditRefusal h e with
  | some status => (s, bare status)
  | none =>
    let l := s.list e.axis
    let merged :=
      match l.itemOf h with
      | some (.alter _ held) => v.mergeOver held
      | _ => v
    if v.alien e || !v.pointsFit (merged.writeTo e) (s.axis e.axis).modulus then (s, bare .badValue)
    else if s.wouldSpan (merged.writeTo e) then (s, bare .spansWrap)
    else if (l.itemOf h).isSome then s.finishEdit e.axis (l.replaceFor h (.alter h merged)) close
    else if Config.listCapacity ≤ l.items.length then (s, bare .listFull)
    else s.finishEdit e.axis (l.items ++ [.alter h merged]) close

/-- Check 2 of R107 has found the entry inconsistent: it is fenced, and the request goes on when the claims of the fence are
taken (R160, R161). -/
def State.fencedByEdit (s : State) (h : Nat) (next : Next) : State × Work :=
  ((s.beginFence h).1, claimed (s.beginFence h).2 next)

/-- ALTER, its arguments decoded: check 2 of R107, with its read in the integrity sense, and then by state. -/
def State.alter (s : State) (h : Nat) (v : AlterValues) (close : Bool) : State × Work :=
  match s.slot h with
  | .free | .disabled | .unread _ _ _ => (s, bare .noSuchEntry)
  | .fenced _ _ _ => (s, bare .fenced)
  | .staged e ok => if ok then s.alterStaged h e (v.forEntry e) close else s.fencedByEdit h (.reply .fenced [])
  | .live e ok _ => if ok then s.alterLive h e (v.forEntry e) close else s.fencedByEdit h (.reply .fenced [])

/-- ALTER (R109). -/
def alterBlock : Handler := fun args s =>
  match decodeAlter args with
  | none => (s, bare .badValue)
  | some (h, v, close) => s.alter h v close

/-- ALTER (R109). -/
def execAlter (sent : Sent) (s : State) : Host.Outcome State Fault Refusal :=
  .next (s.request 0x31#8 sent.rest sent.pace alterBlock)

/-! ### RETIRE -/

/-- The end of a RETIRE that has passed its checks. -/
def State.finishRetire (s : State) (a : AxisId) (items : List Item) (close : Bool) (h : Nat) : State × Work :=
  (s.takeItems a items close).closes a h true

/-- RETIRE of a STAGED entry, which has been read: checks 3 to 5, then its PLACE item is removed and the slot is
FREE at once (R110, R114). -/
def State.retireStaged (s : State) (h : Nat) (e : Entry) (close : Bool) : State × Work :=
  match s.handleEditRefusal h e with
  | some status => (s, bare status)
  | none =>
    (s.setSlot h .free).finishRetire e.axis ((s.list e.axis).items.filter (fun i => !i.names h)) close h

/-- RETIRE of a LIVE entry, which has been read: checks 3 to 5 and 9, then a RETIRE item, in the place of its ALTER
item or at the end (R110, R114). -/
def State.retireLive (s : State) (h : Nat) (e : Entry) (close : Bool) : State × Work :=
  match s.handleEditRefusal h e with
  | some status => (s, bare status)
  | none =>
    let l := s.list e.axis
    if (l.itemOf h).isSome then s.finishRetire e.axis (l.replaceFor h (.retire h)) close h
    else if Config.listCapacity ≤ l.items.length then (s, bare .listFull)
    else s.finishRetire e.axis (l.items ++ [.retire h]) close h

/-- RETIRE, its arguments decoded: check 2 of R107, with its read in the integrity sense, and then by state. -/
def State.retire (s : State) (h : Nat) (close : Bool) : State × Work :=
  match s.slot h with
  | .free | .disabled | .unread _ _ _ => (s, bare .noSuchEntry)
  | .fenced _ _ _ => s.retireFenced h
  | .staged e ok => if ok then s.retireStaged h e close else s.fencedByEdit h (.retire h)
  | .live e ok _ => if ok then s.retireLive h e close else s.fencedByEdit h (.retire h)

/-- RETIRE (R110). -/
def retireBlock : Handler := fun args s =>
  match decodeRetire args with
  | none => (s, bare .badValue)
  | some (h, close) => s.retire h close

/-- RETIRE (R110). -/
def execRetire (sent : Sent) (s : State) : Host.Outcome State Fault Refusal :=
  .next (s.request 0x32#8 sent.rest sent.pace retireBlock)

/-! ### SET_LEAD -/

/-- The lead each output will have in the post-state that a SET_LEAD asks for (R113). -/
def State.leadsWith (s : State) (a : AxisId) (o : OutId) (lead : Int) (o' : OutId) : Int :=
  if o' = o then lead else s.leadAfter a o'

/-- Whether a SET_LEAD would leave a once-per-revolution WINDOW of its output spanning the wrap point (R113). -/
def State.leadWouldSpan (s : State) (a : AxisId) (o : OutId) (lead : Int) : Bool :=
  handles.any (fun h => (s.entryAfter h).any (fun e =>
    e.targets o && e.spansUnder (s.axis e.axis).modulus (s.leadsWith a o lead)))

/-- SET_LEAD, its arguments decoded, for an output bound to an axis: checks 3, 4 and 7 to 9 of R107, then the item
(R112, R114). -/
def State.setLeadOn (s : State) (a : AxisId) (o : OutId) (lead : Int) (close : Bool) : State × Work :=
  let l := s.list a
  if (s.axis a).state = .off then (s, bare .wrongState)
  else if l.closed then (s, bare .listSealed)
  else if (s.axis a).modulus ≤ lead.natAbs then (s, bare .badValue)
  else if s.leadWouldSpan a o lead then (s, bare .spansWrap)
  else if l.items.any (Item.leads o) then
    s.finishEdit a (l.items.map (fun i => if i.leads o then .setLead o lead else i)) close
  else if Config.listCapacity ≤ l.items.length then (s, bare .listFull)
  else s.finishEdit a (l.items ++ [.setLead o lead]) close

/-- SET_LEAD (R112): an output whose binding is none is refused with MISMATCH. -/
def setLeadBlock : Handler := fun args s =>
  match decodeSetLead args with
  | none => (s, bare .badValue)
  | some (o, lead, close) =>
    match (s.output o).binding with
    | none => (s, bare .mismatch)
    | some a => s.setLeadOn a o lead close

/-- SET_LEAD (R112). -/
def execSetLead (sent : Sent) (s : State) : Host.Outcome State Fault Refusal :=
  .next (s.request 0x33#8 sent.rest sent.pace setLeadBlock)

/-! ### CLOSE_LIST, DISCARD, READ_PENDING -/

/-- CLOSE_LIST of an axis (R116). -/
def State.closeList (s : State) (a : AxisId) : State × Work :=
  let l := s.list a
  if (s.axis a).state = .off then (s, bare .wrongState)
  else if l.closed then (s, replied .done (s.listAnswer a none 0 0#8 0))
  else if l.items.isEmpty then (s, bare .nothingPending)
  else s.finishEdit a l.items true

/-- CLOSE_LIST (R116). -/
def closeListBlock : Handler := fun args s =>
  match axisOf (natAt args 0 1) with
  | none => (s, bare .badValue)
  | some a => s.closeList a

/-- CLOSE_LIST (R116). -/
def execCloseList (sent : Sent) (s : State) : Host.Outcome State Fault Refusal :=
  .next (s.request 0x34#8 sent.rest sent.pace closeListBlock)

/-- A discarded item: the slot of a PLACE item goes from STAGED to FREE, and the others leave nothing behind (R128). -/
def State.discardItem (s : State) : Item → State
  | .place h => if (s.slot h).lifecycle = .staged then s.setSlot h .free else s
  | .alter _ _ | .retire _ | .setLead _ _ => s

/-- DISCARD of an axis (R128): a list without items is opened if it was closed. -/
def State.discard (s : State) (a : AxisId) : State × Work :=
  let l := s.list a
  if (s.axis a).state = .off then (s, bare .wrongState)
  else if l.items.isEmpty then
    (if l.closed then s.setList a ⟨[], false, l.change + 1#8⟩ else s, bare .nothingPending)
  else
    let t := (l.items.foldl State.discardItem s).setList a ⟨[], false, l.change + 1#8⟩
    (t, replied .done (t.listAnswer a none 0 0#8 l.items.length))

/-- DISCARD (R128). -/
def discardBlock : Handler := fun args s =>
  match axisOf (natAt args 0 1) with
  | none => (s, bare .badValue)
  | some a => s.discard a

/-- DISCARD (R128). -/
def execDiscard (sent : Sent) (s : State) : Host.Outcome State Fault Refusal :=
  .next (s.request 0x35#8 sent.rest sent.pace discardBlock)

/-- The 19 bytes of one item with its index in the list (R129, R192). -/
def State.itemRecord (s : State) (index : Nat) (i : Item) : List Byte :=
  [itemCode (some i), byteOf index] ++ bytesOf 2 (i.handle?.getD 0) ++
    match i with
    | .place h =>
      match (s.slot h).entry? with
      | some e =>
        [byteOf e.axis, e.kind.code, outputByte e.output, e.values.presence] ++ e.values.bytes
      | none => List.replicate 15 0#8
    | .alter _ v => [0#8, 0#8, 0#8, v.presence] ++ v.bytes
    | .retire _ => List.replicate 15 0#8
    | .setLead o lead => [0#8, 0#8, byteOf o, 0#8] ++ signedBytesOf 2 lead ++ List.replicate 9 0#8

/-- The READ_PENDING payload from a start index, at most six items (R129, R192). -/
def State.pendingPayload (s : State) (a : AxisId) (start : Nat) : List Byte :=
  let l := s.list a
  let shown := (l.items.drop start).take 6
  [byteOf a, boolByte l.closed, byteOf l.items.length, l.change, byteOf shown.length]
    ++ ((List.range shown.length).zipWith (fun k i => s.itemRecord (start + k) i) shown).flatten

/-- READ_PENDING changes nothing (R129). -/
def readPendingBlock : Handler := fun args s =>
  match axisOf (natAt args 0 1), withinNat 0 31 (natAt args 1 1) with
  | some a, some start => (s, replied .done (s.pendingPayload a start))
  | _, _ => (s, bare .badValue)

/-- READ_PENDING (R129). -/
def execReadPending (sent : Sent) (s : State) : Host.Outcome State Fault Refusal :=
  .next (s.request 0x36#8 sent.rest sent.pace readPendingBlock)

end Sys2Proof.Machine
end

