-- ==== Sys2Proof/Machine/Outputs.lean ====
section
/-! DEFINITION. The output requests (chapter 4.6): CONFIG_OUTPUT, SET_OUTPUT_MODE, CLEAR_OUTPUT_FAULT, READ_OUTPUT. -/

namespace Sys2Proof.Machine

/-- Whether a SET_LEAD item names an output in any pending list (R97). -/
def State.leadWaits (s : State) (o : OutId) : Bool := s.lists.toList.any (fun l => l.items.any (Item.leads o))

/-- Whether an output has a dependent that keeps a change from being made: an entry for either change, a SET_LEAD
item for a change of binding alone (R97). -/
def State.outputBlocked (s : State) (c : OutputConfig) : Bool :=
  let x := s.output c.output
  ((x.binding != c.binding || x.drive != c.drive) && decide (0 < s.targeting c.output))
    || (x.binding != c.binding && s.leadWaits c.output)

/-- Whether the binding of a CONFIG_OUTPUT names an axis that is OFF (R97). -/
def State.bindsOff (s : State) (b : Option AxisId) : Bool :=
  match b with
  | some a => (s.axis a).state == .off
  | none => false

/-- Whether the present lead of an output does not fit the modulus of the axis named (R97). -/
def State.leadUnfit (s : State) (c : OutputConfig) : Bool :=
  match c.binding with
  | some a => decide ((s.axis a).modulus ≤ (s.output c.output).lead.natAbs)
  | none => false

/-- The fields a CONFIG_OUTPUT writes; with drive type TOGGLE the latch is loaded (R89, R99). -/
def Output.configure (x : Output) (c : OutputConfig) : Output :=
  { x with
    binding := c.binding
    drive := c.drive
    polarity := c.polarity
    safeLevel := c.safeLevel
    toggleInitial := c.toggleInitial
    latch := if c.drive = .toggle then c.toggleInitial else x.latch }

/-- The CONFIG_OUTPUT that has passed its checks (R99, R153). Before a change of binding or drive type the claims of fences
that still wait for the record are taken, so that its counts are 0 (R99; log entry 13). -/
def State.writeConfig (s : State) (c : OutputConfig) : State :=
  let x := s.output c.output
  let t := if x.binding = c.binding ∧ x.drive = c.drive then s else s.takeFences c.output
  let written := t.setOutput c.output ((t.output c.output).configure c)
  if x.binding = c.binding then written else written.rebound c.output

/-- CONFIG_OUTPUT with its checks in order (R97). -/
def State.configOutput (s : State) (c : OutputConfig) : State × Work :=
  if s.bindsOff c.binding then (s, bare .wrongState)
  else if s.outputBlocked c then (s, bare .hasDependents)
  else if s.leadUnfit c then (s, bare .badValue)
  else (s.writeConfig c, bare .done)

/-- CONFIG_OUTPUT (R97). -/
def configOutputBlock : Handler := fun args s =>
  match decodeConfigOutput args with
  | none => (s, bare .badValue)
  | some c => s.configOutput c

/-- CONFIG_OUTPUT (R97). -/
def execConfigOutput (sent : Sent) (s : State) : Host.Outcome State Fault Refusal :=
  .next (s.request 0x20#8 sent.rest sent.pace configOutputBlock)

/-- The mode takes a new value; a change to ISOLATED made while the output has no hold captures the held level first
(R95, R100). -/
def Output.setMode (x : Output) (m : Mode) : Output :=
  if m = x.mode then x
  else if m = .isolated then { x.capture with mode := m }
  else { x with mode := m }

/-- SET_OUTPUT_MODE (R100). -/
def setOutputModeBlock : Handler := fun args s =>
  match outputOf (natAt args 0 1), modeOf (natAt args 1 1) with
  | some o, some m => (s.setOutput o ((s.output o).setMode m), bare .done)
  | _, _ => (s, bare .badValue)

/-- SET_OUTPUT_MODE (R100). -/
def execSetOutputMode (sent : Sent) (s : State) : Host.Outcome State Fault Refusal :=
  .next (s.request 0x21#8 sent.rest sent.pace setOutputModeBlock)

/-- CLEAR_OUTPUT_FAULT (R101). -/
def clearOutputFaultBlock : Handler := fun args s =>
  match outputOf (natAt args 0 1) with
  | none => (s, bare .badValue)
  | some o =>
    if 0 < s.fencedTargeting o then (s, bare .hasDependents)
    else (s.setOutput o { s.output o with faultHold := false }, bare .done)

/-- CLEAR_OUTPUT_FAULT (R101). -/
def execClearOutputFault (sent : Sent) (s : State) : Host.Outcome State Fault Refusal :=
  .next (s.request 0x22#8 sent.rest sent.pace clearOutputFaultBlock)

/-- READ_OUTPUT changes no field. The record is one claim, and the numbers of entries are taken from the table in the
same request (R102). -/
def readOutputBlock : Handler := fun args s =>
  match outputOf (natAt args 0 1) with
  | none => (s, bare .badValue)
  | some o => (s, sampled [.output o, .targets o])

/-- READ_OUTPUT (R102). -/
def execReadOutput (sent : Sent) (s : State) : Host.Outcome State Fault Refusal :=
  .next (s.request 0x23#8 sent.rest sent.pace readOutputBlock)

end Sys2Proof.Machine
end

