-- ==== Sys2Proof/Machine/PortRequests.lean ====
section
/-! DEFINITION. The requests of the port and of attention: NOP, READ_STATUS, ACK_ATTENTION, SET_ATTENTION_MASK
(R183, R184, R139, R140). -/

namespace Sys2Proof.Machine

/-- NOP completes DONE with an empty payload (R183). -/
def nopBlock : Handler := fun _ s => (s, bare .done)

/-- NOP (R183). -/
def execNop (sent : Sent) (s : State) : Host.Outcome State Fault Refusal :=
  .next (s.request 0x01#8 sent.rest sent.pace nopBlock)

/-- The items of READ_STATUS, each a claim on the block that owns it (R184). The states of the four axes are four items, one
claim on each Axis Unit, between which other claims can come (DESIGN CHOICE, log entry 20). -/
def statusItems : List ReadItem :=
  [.condition, .attention, .members, .report, .slots, .axis 0, .axis 1, .axis 2, .axis 3, .silicon]

/-- READ_STATUS changes nothing (R184). -/
def readStatusBlock : Handler := fun _ s => (s, sampled statusItems)

/-- READ_STATUS (R184). -/
def execReadStatus (sent : Sent) (s : State) : Host.Outcome State Fault Refusal :=
  .next (s.request 0x02#8 sent.rest sent.pace readStatusBlock)

/-- ACK_ATTENTION: the named reasons are removed in the claim of the completion (R139). -/
def ackAttentionBlock : Handler := fun args s =>
  match reasonsOf (natAt args 0 1) with
  | none => (s, bare .badValue)
  | some r => (s, .ready .done [] (.acknowledge r))

/-- ACK_ATTENTION (R139). -/
def execAckAttention (sent : Sent) (s : State) : Host.Outcome State Fault Refusal :=
  .next (s.request 0x03#8 sent.rest sent.pace ackAttentionBlock)

/-- SET_ATTENTION_MASK: the mask is replaced in the claim of the completion (R140). -/
def setAttentionMaskBlock : Handler := fun args s =>
  match reasonsOf (natAt args 0 1) with
  | none => (s, bare .badValue)
  | some m => (s, .ready .done [] (.setMask m))

/-- SET_ATTENTION_MASK (R140). -/
def execSetAttentionMask (sent : Sent) (s : State) : Host.Outcome State Fault Refusal :=
  .next (s.request 0x04#8 sent.rest sent.pace setAttentionMaskBlock)

end Sys2Proof.Machine
end

