-- ==== Sys2Proof/Machine/SafeRequests.lean ====
section
/-! DEFINITION. The safe-state requests and the events of the STOP line (chapter 7): ENTER_SAFE, RELEASE_SAFE,
STOP_EVENT, STOP_INACTIVE. -/

namespace Sys2Proof.Machine

/-- The safe answer: condition, recognized level of STOP, safe holds set, outputs released by the request (R147,
R192). -/
def State.safeAnswer (s : State) (released : Nat) : List Byte :=
  [s.condition.code, boolByte s.stopActive, byteOf s.safeHolds, byteOf released]

/-- ENTER_SAFE is never refused (R147). -/
def enterSafeBlock : Handler := fun _ s => (s.enterSafe, replied .done (s.enterSafe.safeAnswer 0))

/-- ENTER_SAFE (R147). -/
def execEnterSafe (sent : Sent) (s : State) : Host.Outcome State Fault Refusal :=
  .next (s.request 0x50#8 sent.rest sent.pace enterSafeBlock)

/-- RELEASE_SAFE (R149): the number released is how many safe holds the request cleared. -/
def releaseSafeBlock : Handler := fun _ s =>
  match s.condition with
  | .safe =>
    if s.stopActive then (s, bare .stopActive)
    else (s.beginRelease, replied .done (s.beginRelease.safeAnswer (s.safeHolds - s.beginRelease.safeHolds)))
  | .normal | .releasing => (s, replied .done (s.safeAnswer 0))

/-- RELEASE_SAFE (R149). -/
def execReleaseSafe (sent : Sent) (s : State) : Host.Outcome State Fault Refusal :=
  .next (s.request 0x51#8 sent.rest sent.pace releaseSafeBlock)

/-- Whether a change of STOP is recognized: not while RST is asserted, and once 11 consecutive samples have shown the
new level (R145). -/
def State.recognizesStop (s : State) (samples : Nat) : Bool :=
  s.phase != .held && decide (Config.stopSamples ≤ samples)

/-- STOP_EVENT (R145, R146): the recognized level becomes active, and the device enters SAFE unless it is SAFE. -/
def execStopEvent (samples : Nat) (s : State) : Host.Outcome State Fault Refusal :=
  if s.recognizesStop samples ∧ s.stopActive = false then .next { s with stopActive := true }.enterSafe else .next s

/-- STOP_INACTIVE (R145): the recognized level becomes inactive and nothing else. -/
def execStopInactive (samples : Nat) (s : State) : Host.Outcome State Fault Refusal :=
  if s.recognizesStop samples then .next { s with stopActive := false } else .next s

end Sys2Proof.Machine
end

