-- ==== Sys2Proof/Machine/TableReads.lean ====
section
/-! DEFINITION. The requests that read the table: READ_ENTRY and LIST_AXIS (chapters 1.5, 1.6), READ_NOTIFY
(chapter 6.2). -/

namespace Sys2Proof.Machine

/-! ### READ_ENTRY -/

/-- The presence byte of an entry record: each bit as R17 and R22 give the field in the slot's state (R192). Bit 7, which
R192 does not name, is 0 (DESIGN CHOICE, log entry 19). -/
def entryPresence (v : Slot) (e : Entry) : Byte :=
  byteOf ((if e.off?.isSome then 1 else 0) + (if e.duration?.isSome then 2 else 0)
    + (if e.qualifier?.isSome then 4 else 0) + (if v.log?.isSome then 8 else 0)
    + (if v.log?.any (fun l => l.lastFire.isSome) then 16 else 0)
    + (if v.lifecycle = .live then 32 else 0)
    + (if v.lifecycle = .live ∨ v.lifecycle = .fenced then 64 else 0))

/-- The activity byte of a slot; 00h where the slot has none (DESIGN CHOICE, log entry 15). -/
def activityByte (v : Slot) : Byte := boolByte v.isActive

/-- The spent byte of a slot; 00h where the slot has none (DESIGN CHOICE, log entry 15). -/
def spentByte : Slot → Byte
  | .live _ _ r => boolByte r.spent
  | _ => 0#8

/-- Whether a slot gives effective points: LIVE or FENCED (R22). -/
def Slot.hasEffective (v : Slot) : Bool := v.lifecycle == .live || v.lifecycle == .fenced

/-- The 32 bytes of an entry record; an absent output is FFh, and the bytes of an absent point, pass count or revolution
count are 00h (R190, R192). Those of the other absent fields, for which R190 states no byte, are 00h too (DESIGN CHOICE,
log entry 15). -/
def State.entryRecord (s : State) (h : Nat) (e : Entry) : List Byte :=
  let v := s.slot h
  let l := v.log?.getD FireLog.fresh
  [v.lifecycle.code] ++ bytesOf 2 h ++ [byteOf e.axis, e.kind.code, outputByte e.output]
    ++ bytesOf 2 e.on ++ bytesOf 2 (e.off?.getD 0) ++ bytesOf 2 (e.duration?.getD 0)
    ++ [(e.qualifier?.map Qualifier.code).getD 0#8, boolByte e.oncePerRev, boolByte e.notify]
    ++ bytesOf 2 e.label.toNat
    ++ [activityByte v, spentByte v] ++ bytesOf 2 l.passCount.toNat ++ [entryPresence v e]
    ++ bytesOf 2 ((l.lastFire.map (fun f => f.revolution.toNat)).getD 0)
    ++ [(l.lastFire.map (fun f => f.direction.code)).getD 0#8, boolByte l.notifyPending, byteOf l.missed,
        itemCode (s.itemOf h)]
    ++ bytesOf 2 (if v.hasEffective then s.effOn e else 0)
    ++ bytesOf 2 (if v.hasEffective then (s.effOff e).getD 0 else 0)

/-- READ_ENTRY of a handle: a read in the integrity sense, and the record as the read leaves it (R22, R23). -/
def State.readEntry (s : State) (h : Nat) : State × Work :=
  let read := s.checkRead h
  match (read.1.slot h).entry? with
  | none => (s, bare .noSuchEntry)
  | some e => (read.1, claimed read.2 (.reply .done (read.1.entryRecord h e)))

/-- READ_ENTRY (R22). -/
def readEntryBlock : Handler := fun args s =>
  match handleOf (natAt args 0 2) with
  | none => (s, bare .badValue)
  | some h => s.readEntry h

/-- READ_ENTRY (R22). -/
def execReadEntry (sent : Sent) (s : State) : Host.Outcome State Fault Refusal :=
  .next (s.request 0x38#8 sent.rest sent.pace readEntryBlock)

/-! ### Reads of several entries

The entries that LIST_AXIS returns are read in one claim on the order of the axis (R24), and the members that READ_NOTIFY
returns in one claim on the notify set (R133). So claim 1 of every fence that these reads provoke is taken with them, and
claims 2 and 3 of each follow, fence by fence (DEDUCED, log entry 13). -/

/-- What the reads of a request have come to: the state, the claims of fences still to take, and the bytes returned. -/
structure Reading where
  state : State
  claims : List Task
  bytes : List Byte

/-! ### LIST_AXIS -/

/-- The 12 bytes of one entry of a listing (R25, R192). -/
def State.listRecord (s : State) (h : Nat) : List Byte :=
  let v := s.slot h
  match v.entry? with
  | none => List.replicate 12 0#8
  | some e =>
    let live := v.lifecycle == .live
    bytesOf 2 h ++ [v.lifecycle.code, e.kind.code, outputByte e.output]
      ++ bytesOf 2 (s.effOn e) ++ bytesOf 2 ((s.effOff e).getD 0)
      ++ [if live then activityByte v else 0xFF#8, if live then spentByte v else 0xFF#8, itemCode (s.itemOf h)]

/-- A listing reads each LIVE entry it returns, and returns it as the read leaves it (R25). -/
def Reading.list (acc : Reading) (h : Nat) : Reading :=
  let read := acc.state.checkRead h
  ⟨read.1, acc.claims ++ read.2, acc.bytes ++ read.1.listRecord h⟩

/-- The header of a listing: entry count, end marker, next cursor (R192). -/
def listHeader (count : Nat) (next : Option (Nat × Nat)) : List Byte :=
  [byteOf count, boolByte next.isNone] ++ bytesOf 2 ((next.map Prod.fst).getD 0)
    ++ bytesOf 2 ((next.map Prod.snd).getD 0)

/-- LIST_AXIS from a cursor: the first eight entries whose order key is not below it (R24, R25). -/
def State.listAxis (s : State) (a : AxisId) (cursor : Nat × Nat) : State × Work :=
  let selected := (s.order a).filter (fun h => decide (keyLE cursor (s.key h)))
  let listed := (selected.take 8).foldl Reading.list ⟨s, [], []⟩
  (listed.state, claimed listed.claims
    (.reply .done (listHeader (selected.take 8).length ((selected[8]?).map s.key) ++ listed.bytes)))

/-- LIST_AXIS: the checks of R24; an OFF axis gives no entries and the end marker. -/
def listAxisBlock : Handler := fun args s =>
  match axisOf (natAt args 0 1), handleOf (natAt args 3 2) with
  | some a, some h =>
    if (s.axis a).modulus ≤ natAt args 1 2 then (s, bare .badValue)
    else if (s.axis a).state = .off then (s, replied .done (listHeader 0 none))
    else s.listAxis a (natAt args 1 2, h)
  | _, _ => (s, bare .badValue)

/-- LIST_AXIS (R24). -/
def execListAxis (sent : Sent) (s : State) : Host.Outcome State Fault Refusal :=
  .next (s.request 0x39#8 sent.rest sent.pace listAxisBlock)

/-! ### READ_NOTIFY -/

/-- The 11 bytes of one member, the missed count as it stood before the read (R133, R192). A last fire that a member
does not carry is sent as 00h (log entry 14). -/
def State.memberRecord (s : State) (h : Nat) : List Byte :=
  let v := s.slot h
  let l := v.log?.getD FireLog.fresh
  match v.entry? with
  | none => List.replicate 11 0#8
  | some e =>
    bytesOf 2 h ++ [v.lifecycle.code] ++ bytesOf 2 e.label.toNat ++ [e.kind.code, byteOf e.axis]
      ++ bytesOf 2 ((l.lastFire.map (fun f => f.revolution.toNat)).getD 0)
      ++ [(l.lastFire.map (fun f => f.direction.code)).getD 0#8, byteOf l.missed]

/-- A member that is returned leaves the notify set; an UNREAD slot becomes FREE (R134). -/
def State.unmember (s : State) (h : Nat) : State :=
  match s.slot h with
  | .live e ok r => s.setSlot h (.live e ok { r with log := { r.log with notifyPending := false, missed := 0 } })
  | .fenced e ok l => s.setSlot h (.fenced e ok { l with notifyPending := false, missed := 0 })
  | .unread _ _ _ => s.setSlot h .free
  | .free | .staged _ _ | .disabled => s

/-- One member of a READ_NOTIFY: a LIVE one is read in the integrity sense, it is returned as the read leaves it, and
it leaves the set (R134). -/
def Reading.member (acc : Reading) (h : Nat) : Reading :=
  let read := acc.state.checkRead h
  ⟨read.1.unmember h, acc.claims ++ read.2, acc.bytes ++ read.1.memberRecord h⟩

/-- READ_NOTIFY from a start handle: at most eight members in ascending handle order (R133). -/
def State.readNotify (s : State) (start : Nat) : State × Work :=
  let selected := s.notifySet.filter (fun h => decide (start ≤ h))
  let returned := (selected.take 8).foldl Reading.member ⟨s, [], []⟩
  let next := selected[8]?
  (returned.state, claimed returned.claims (.reply .done
    ([byteOf (selected.take 8).length, boolByte next.isSome] ++ bytesOf 2 (next.getD 0)
      ++ bytesOf 2 returned.state.notifySet.length ++ returned.bytes)))

/-- READ_NOTIFY (R133). -/
def readNotifyBlock : Handler := fun args s =>
  match handleOf (natAt args 0 2) with
  | none => (s, bare .badValue)
  | some start => s.readNotify start

/-- READ_NOTIFY (R133). -/
def execReadNotify (sent : Sent) (s : State) : Host.Outcome State Fault Refusal :=
  .next (s.request 0x40#8 sent.rest sent.pace readNotifyBlock)

end Sys2Proof.Machine
end

