-- ==== Sys2Proof/Machine/Blocks.lean ====
section
/-! DEFINITION. Which block carries out which request, and what the part does of itself: the work that an acceptance left
waiting (R180), the work that a channel has stopped in (R57), the completion of a request (R179), and a request
frame sorted by its bytes (R174). -/

namespace Sys2Proof.Machine

/-- The block that carries out a request of this code; `l` are the levels a CONFIG_AXIS finds on its lines. A code that
names no request reaches no block. -/
def blockOf (code : Byte) (l : Lines) : Handler :=
  match code.toNat with
  | 0x01 => nopBlock
  | 0x02 => readStatusBlock
  | 0x03 => ackAttentionBlock
  | 0x04 => setAttentionMaskBlock
  | 0x10 => configAxisBlock l
  | 0x11 => runAxisBlock
  | 0x12 => haltAxisBlock
  | 0x13 => setPositionBlock
  | 0x14 => moveAxisBlock
  | 0x15 => setRateBlock
  | 0x16 => readAxisBlock
  | 0x20 => configOutputBlock
  | 0x21 => setOutputModeBlock
  | 0x22 => clearOutputFaultBlock
  | 0x23 => readOutputBlock
  | 0x30 => placeBlock
  | 0x31 => alterBlock
  | 0x32 => retireBlock
  | 0x33 => setLeadBlock
  | 0x34 => closeListBlock
  | 0x35 => discardBlock
  | 0x36 => readPendingBlock
  | 0x38 => readEntryBlock
  | 0x39 => listAxisBlock
  | 0x40 => readNotifyBlock
  | 0x50 => enterSafeBlock
  | 0x51 => releaseSafeBlock
  | 0x60 => readFaultReportBlock
  | 0x61 => clearFaultReportBlock
  | 0x62 => tableTestBlock
  | 0x63 => spoilCheckBlock
  | _ => fun _ s => (s, bare .unknownRequest)

/-- The executing or draining request, if there is one. -/
def PortState.request? : PortState → Option Executing
  | .idle => none
  | .executing r | .draining r => some r

/-- The request that executes or drains goes on: the block takes the work that the acceptance left waiting, and a request
that has stopped goes on with its claims, to its next stop or to its outcome (R180). -/
def State.takeWork (s : State) : State :=
  match s.port.state.request? with
  | some ⟨code, _, .waiting args l pace⟩ => s.runBlock code (blockOf code l) args pace
  | some ⟨_, _, w⟩ => s.withOutcome (s.resumeWork w)
  | none => s

/-- What the part does where no command waits: the first channel that has work in progress ends it (R57), else the request
that executes goes on (R180), else nothing happens (log entry 8). -/
def State.background (s : State) : State :=
  match axisIds.find? s.busy with
  | some a => s.finish a
  | none => s.takeWork

/-- REQUEST_COMPLETION (R179): the request that executes goes on first. Where it stops again, and without a request whose
outcome is in, there is no completion. -/
def execRequestCompletion (s : State) : Host.Outcome State Fault Refusal := .next s.takeWork.complete

/-- UNKNOWN_REQUEST (R174, R180): the transaction is sorted by its bytes. A code that names no request reaches no block;
bytes that are no such frame are taken for what they are. -/
def execUnknownRequest (code : Byte) (rest : List Byte) (s : State) : Host.Outcome State Fault Refusal :=
  match sortBytes (code :: rest) with
  | .nothing | .poll => .next s.endTransaction
  | .portBreak => .next s.takeBreak
  | .request code rest => .next (s.request code rest .prompt (blockOf code ⟨false, false, false⟩))

end Sys2Proof.Machine
end

