-- ==== Sys2Proof/Machine/Lines.lean ====
section
/-! DEFINITION. The events of the Axis Units that do not come through the port: ENCODER_COUNT, INDEX_EVENT,
RATE_INTERVAL and RECOGNIZED_LINE_CHANGE (chapters 2.6 to 2.9). -/

namespace Sys2Proof.Machine

/-- A change is recognized once N+1 consecutive samples have shown the new level, N being the input filter; an OFF
axis does not filter its lines (R45). -/
def Axis.recognizes (x : Axis) (samples : Nat) : Bool :=
  x.state != .off && decide (x.filter.toNat + 1 ≤ samples)

/-- The recognized levels of an axis take new values (R45). -/
def State.setLines (s : State) (a : AxisId) (l : Lines) : State := s.setAxis a { s.axis a with lines := l }

/-- The place of a pair (A, B) in the forward sequence 00, 10, 11, 01 (R46). -/
def quadraturePlace (a b : Bool) : Nat :=
  match a, b with
  | false, false => 0
  | true, false => 1
  | true, true => 2
  | false, true => 3

/-- What a change of the pair (A, B) means to the decoder. -/
inductive Quadrature where
  | unchanged
  | count (n : Int)
  | both
deriving DecidableEq, Repr

/-- The decoding of a change of the recognized pair: one place along the sequence is +1, one back is −1, direction
invert swaps them, and a change of both lines has no direction (R46, R47). -/
def decodeQuadrature (invert : Bool) (before : Lines) (a b : Bool) : Quadrature :=
  match (quadraturePlace a b + 4 - quadraturePlace before.a before.b) % 4 with
  | 0 => .unchanged
  | 1 => .count (if invert then -1 else 1)
  | 2 => .both
  | _ => .count (if invert then 1 else -1)

/-- The recognized lines take new levels, and on a RUNNING ENCODER axis a change of the pair is a count, or a fault for
a change of both lines, whose report carries the tracked position before it (R46, R47, R48). -/
def State.linesChange (s : State) (x : AxisId) (l : Lines) (order : FaultOrder) : State :=
  let before := s.axis x
  let moved := s.setLines x l
  if before.countsEncoder then
    match decodeQuadrature before.invert before.lines l.a l.b with
    | .unchanged => moved
    | .count n => moved.addCounts x n order
    | .both => moved.axisFault x .illegalTransition order
  else moved

/-- ENCODER_COUNT (R46): the pair takes new levels, Z keeping its own. Below the filter time the change is not
recognized (R45). -/
def execEncoderCount (x : AxisId) (a b : Bool) (samples : Nat) (order : FaultOrder) (s : State) :
    Host.Outcome State Fault Refusal :=
  if (s.axis x).recognizes samples then
    .next ((s.endApplying x).linesChange x ⟨a, b, (s.axis x).lines.z⟩ order)
  else .next s

/-- The signed shortest circular distance from the index point to the tracked position; exactly half the modulus
is kept positive (R54). -/
def deviation (modulus tracked index : Nat) : Int :=
  let d := ((tracked : Int) - (index : Int)) % (modulus : Int)
  if (modulus : Int) < 2 * d then d - modulus else d

/-- A later index event of a REFERENCED axis: no change, a correction, or a fault (R54). -/
def State.checkIndex (s : State) (a : AxisId) (index : Nat) (order : FaultOrder) : State :=
  let x := s.axis a
  let d := deviation x.modulus x.tracked index
  if d = 0 then s
  else if d.natAbs ≤ x.tolerance.toNat then
    if (x.backlog - d).natAbs ≤ Config.backlogLimit then
      (s.setAxis a { x with corrections := min 255 (x.corrections + 1) }).addCounts a (-d) order
    else s.axisFault a .countOverrun order
  else s.axisFault a (.indexMismatch d) order

/-- An index event: it references an UNREFERENCED axis by a jump, setting AXIS_CHANGED (R53), or checks a REFERENCED
one (R54). -/
def State.indexEvent (s : State) (a : AxisId) (index : Nat) (order : FaultOrder) : State :=
  if (s.axis a).referenced then s.checkIndex a index order
  else ((s.setAxis a ((s.axis a).jumped index)).latch reasonAxisChanged).evaluateJump a

/-- INDEX_EVENT (R52): the recognized level of Z goes from low to high; it is an index event on a RUNNING ENCODER
axis with an index point, and otherwise sets the level alone. What counts is the state of the axis when the change is
recognized: a Z line that rose before a RUN_AXIS and whose filter time ends after it is an index event. R52 can be read
either way there (DESIGN CHOICE, log entry 16). An index event is taken when the work in progress on the axis is complete
(R77). -/
def execIndexEvent (a : AxisId) (samples : Nat) (order : FaultOrder) (s : State) :
    Host.Outcome State Fault Refusal :=
  let x := s.axis a
  let risen (t : State) : State := t.setLines a { x.lines with z := true }
  if x.recognizes samples ∧ x.lines.z = false then
    match x.countsEncoder, x.indexPoint with
    | true, some index => .next ((risen (s.finish a)).stopping order.stops (fun t => t.indexEvent a index order))
    | _, _ => .next (risen (s.endApplying a))
  else .next s

/-- Whether a change of the lines to new levels is neither a count nor an index event (R46, R48, R52). -/
def Axis.plainChange (x : Axis) (l : Lines) : Bool :=
  !x.countsEncoder ||
    ((decodeQuadrature x.invert x.lines l.a l.b == .unchanged || decodeQuadrature x.invert x.lines l.a l.b == .both)
      && !(x.indexPoint.isSome && !x.lines.z && l.z))

/-- RECOGNIZED_LINE_CHANGE (R47, R48): the recognized levels are set and nothing else; a change of both A and B on a
RUNNING ENCODER axis faults it. A change that is a count or an index event is not this event (log entry 2). -/
def execRecognizedLineChange (a : AxisId) (l : Lines) (samples : Nat) (order : FaultOrder) (s : State) :
    Host.Outcome State Fault Refusal :=
  if (s.axis a).recognizes samples ∧ (s.axis a).plainChange l then
    .next ((s.endApplying a).linesChange a l order)
  else .next s

/-- The counts of one interval are added one at a time; once one of them faults the axis the rest are not added
(R49). -/
def State.addOneByOne (a : AxisId) (unit : Int) (order : FaultOrder) : Nat → State → State
  | 0, s => s
  | n + 1, s =>
    if (s.axis a).state = .running then State.addOneByOne a unit order n (s.addCounts a unit order) else s

/-- The end of a rate interval for one axis: a RUNNING RATE axis adds the whole counts of remainder plus rate,
truncated toward zero, and keeps the rest (R49). -/
def State.rateTurn (s : State) (turn : AxisId × FaultOrder) : State :=
  let s := s.endApplying turn.1
  let x := s.axis turn.1
  if x.state = .running ∧ x.source = .rate then
    let sum := x.remainder + x.rate
    State.addOneByOne turn.1 (if 0 ≤ sum then 1 else -1) turn.2 (sum.tdiv 10000).natAbs
      (s.setAxis turn.1 { x with remainder := sum.tmod 10000 })
  else s

/-- The turns of a rate interval: the axes named first, each at its first naming, then the others in ascending
order with the claim order of R55. -/
def rateTurns (turns : List (AxisId × FaultOrder)) : List (AxisId × FaultOrder) :=
  (inTurn (turns.map Prod.fst) axisIds).map
    (fun a => (a, ((turns.find? (fun t => t.1 == a)).map Prod.snd).getD FaultOrder.manual))

/-- RATE_INTERVAL (R49). -/
def execRateInterval (turns : List (AxisId × FaultOrder)) (s : State) : Host.Outcome State Fault Refusal :=
  .next ((rateTurns turns).foldl State.rateTurn s)

end Sys2Proof.Machine
end

