-- ==== Sys2Proof/Machine/Dispatch.lean ====
section
/-! DEFINITION. The meaning of every command: one arm per row of spec/opcode_table.json. -/

namespace Sys2Proof.Machine

def exec (i : Instr) (s : State) : Host.Outcome State Fault Refusal :=
  match i with
  | .deviceReset => Sys2Proof.Machine.execDeviceReset s
  | .outgoingFrame => Sys2Proof.Machine.execOutgoingFrame s
  | .poll rest => Sys2Proof.Machine.execPoll rest s
  | .portBreak rest => Sys2Proof.Machine.execPortBreak rest s
  | .unknownRequest code rest => Sys2Proof.Machine.execUnknownRequest code rest s
  | .requestCompletion => Sys2Proof.Machine.execRequestCompletion s
  | .nop sent => Sys2Proof.Machine.execNop sent s
  | .readStatus sent => Sys2Proof.Machine.execReadStatus sent s
  | .ackAttention sent => Sys2Proof.Machine.execAckAttention sent s
  | .setAttentionMask sent => Sys2Proof.Machine.execSetAttentionMask sent s
  | .configAxis sent lines => Sys2Proof.Machine.execConfigAxis sent lines s
  | .runAxis sent => Sys2Proof.Machine.execRunAxis sent s
  | .haltAxis sent => Sys2Proof.Machine.execHaltAxis sent s
  | .setPosition sent => Sys2Proof.Machine.execSetPosition sent s
  | .moveAxis sent => Sys2Proof.Machine.execMoveAxis sent s
  | .setRate sent => Sys2Proof.Machine.execSetRate sent s
  | .readAxis sent => Sys2Proof.Machine.execReadAxis sent s
  | .configOutput sent => Sys2Proof.Machine.execConfigOutput sent s
  | .setOutputMode sent => Sys2Proof.Machine.execSetOutputMode sent s
  | .clearOutputFault sent => Sys2Proof.Machine.execClearOutputFault sent s
  | .readOutput sent => Sys2Proof.Machine.execReadOutput sent s
  | .place sent => Sys2Proof.Machine.execPlace sent s
  | .alter sent => Sys2Proof.Machine.execAlter sent s
  | .retire sent => Sys2Proof.Machine.execRetire sent s
  | .setLead sent => Sys2Proof.Machine.execSetLead sent s
  | .closeList sent => Sys2Proof.Machine.execCloseList sent s
  | .discard sent => Sys2Proof.Machine.execDiscard sent s
  | .readPending sent => Sys2Proof.Machine.execReadPending sent s
  | .readEntry sent => Sys2Proof.Machine.execReadEntry sent s
  | .listAxis sent => Sys2Proof.Machine.execListAxis sent s
  | .readNotify sent => Sys2Proof.Machine.execReadNotify sent s
  | .enterSafe sent => Sys2Proof.Machine.execEnterSafe sent s
  | .releaseSafe sent => Sys2Proof.Machine.execReleaseSafe sent s
  | .readFaultReport sent => Sys2Proof.Machine.execReadFaultReport sent s
  | .clearFaultReport sent => Sys2Proof.Machine.execClearFaultReport sent s
  | .tableTest sent => Sys2Proof.Machine.execTableTest sent s
  | .tableTestVisit passes => Sys2Proof.Machine.execTableTestVisit passes s
  | .spoilCheck sent => Sys2Proof.Machine.execSpoilCheck sent s
  | .encoderCount axis a b samples order => Sys2Proof.Machine.execEncoderCount axis a b samples order s
  | .indexEvent axis samples order => Sys2Proof.Machine.execIndexEvent axis samples order s
  | .rateInterval turns => Sys2Proof.Machine.execRateInterval turns s
  | .axisSilentEnd axis => Sys2Proof.Machine.execAxisSilentEnd axis s
  | .step turn => Sys2Proof.Machine.execStep turn s
  | .pulseExpiry handle elapsed => Sys2Proof.Machine.execPulseExpiry handle elapsed s
  | .stopEvent samples => Sys2Proof.Machine.execStopEvent samples s
  | .stopInactive samples => Sys2Proof.Machine.execStopInactive samples s
  | .memoryDisturbance handle => Sys2Proof.Machine.execMemoryDisturbance handle s
  | .recognizedLineChange axis lines samples order => Sys2Proof.Machine.execRecognizedLineChange axis lines samples order s
  | .endOfReset lines stopActive => Sys2Proof.Machine.execEndOfReset lines stopActive s
  | .portServiceDelayEnd => Sys2Proof.Machine.execPortServiceDelayEnd s

end Sys2Proof.Machine
end

