-- ==== Sys2Proof/Machine/Step.lean ====
section
/-! DEFINITION. One step of the machine: the command at the front of the queue is taken. -/

namespace Sys2Proof.Machine

/-- The command at the front of the queue is carried out on the state with the queue's rest. On an empty queue the part
takes what waits in itself, and idles where nothing does (DESIGN CHOICE, log entry 8). -/
def step (s : State) : Host.Outcome State Fault Refusal :=
  match s.pending with
  | [] => .next s.background
  | c :: rest => exec c { s with pending := rest }

/-- The state with the command that a table word spells put at the front of the queue; unchanged where it spells
none. -/
def State.withFetchWord (s : State) (nbits w : Nat) : State :=
  match decodeTableWord nbits w with
  | none => s
  | some c => { s with pending := c :: s.pending }

end Sys2Proof.Machine
end

