-- ==== Sys2Proof/WellFormed.lean ====
section
/-! DEFINITION. Which terms of `Instr` are commands of the part. The operands' types already bound axis numbers and
handles; what is left is the first bytes of a transaction (R174) and the naming of claims and turns once each. -/

namespace Sys2Proof

/-- A claim order names no claim twice. -/
def FaultOrder.wf (o : FaultOrder) : Bool := decide o.claims.Nodup

/-- A transaction whose first byte is `code` is a request frame whose code names no request (R174, R191). -/
def unknownFrame (code : Byte) (rest : List Byte) : Bool :=
  Machine.sortBytes (code :: rest) == .request code rest && (Machine.argLength code).isNone

/-- The turns of a rate interval name no axis twice, and each claim order is well-formed. -/
def wfTurns (turns : List (AxisId × FaultOrder)) : Bool :=
  decide (turns.map Prod.fst).Nodup && turns.all (fun t => t.2.wf)

/-- The well-formed commands. -/
def Instr.wf : Instr → Bool
  | .unknownRequest code rest => unknownFrame code rest
  | .encoderCount _ _ _ _ order | .indexEvent _ _ order | .recognizedLineChange _ _ _ order => order.wf
  | .rateInterval turns => wfTurns turns
  | .deviceReset | .outgoingFrame | .poll _ | .portBreak _ | .requestCompletion | .nop _ | .readStatus _
  | .ackAttention _ | .setAttentionMask _ | .configAxis _ _ | .runAxis _ | .haltAxis _ | .setPosition _
  | .moveAxis _ | .setRate _ | .readAxis _ | .configOutput _ | .setOutputMode _ | .clearOutputFault _
  | .readOutput _ | .place _ | .alter _ | .retire _ | .setLead _ | .closeList _ | .discard _
  | .readPending _ | .readEntry _ | .listAxis _ | .readNotify _ | .enterSafe _ | .releaseSafe _
  | .readFaultReport _ | .clearFaultReport _ | .tableTest _ | .tableTestVisit _ | .spoilCheck _
  | .axisSilentEnd _ | .step _ | .pulseExpiry _ _ | .stopEvent _ | .stopInactive _ | .memoryDisturbance _
  | .endOfReset _ _ | .portServiceDelayEnd => true

end Sys2Proof
end

