-- ==== Sys2Proof/Safety.lean ====
section
/-! DEFINITION. The vocabulary of the statements: states in which a request is taken, the record of an accepted
request, the argument bytes of requests, and the invariants of the part. Nothing here takes part in a step. -/

namespace Sys2Proof.Machine

/-! ### Requests -/

/-- A request frame with this tag is accepted in this state (R178, R185): the port serves and is IDLE, and the tag is
not the last accepted one. No command is under way that stops the channels' work. -/
abbrev State.Ready (s : State) (tag : Byte) : Prop :=
  s.phase = .serving ∧ s.transaction ≠ .unserved ∧ s.port.state = .idle ∧ s.port.lastTag ≠ some tag ∧ s.stops = []

/-- A request frame with this tag is accepted, and no channel has stopped within the application of a list. A request
that reaches slots, lists or axis records ends such an application first (R120). -/
abbrev State.ReadyAlone (s : State) (tag : Byte) : Prop := s.Ready tag ∧ ∀ a, s.applying a = false

/-- The state with the transaction over and a request accepted, its block's work being `w` (R178, R180). -/
def State.answers (s : State) (code tag : Byte) (w : Work) : State :=
  { s with transaction := .closed, port := ⟨.executing ⟨code, tag, w⟩, none, some tag, ⟨false, false, false⟩⟩ }

/-- The part goes on with this work of itself: the block's work waits, or the request has stopped between two of its claims
(R180, R184). -/
def Work.waits : Work → Bool
  | .waiting _ _ _ | .claiming _ _ _ | .channel _ _ _ | .sampling _ _ _ _ => true
  | .ready _ _ _ | .halting _ | .testing _ => false

/-- An argument area of a request of this code holds a value outside the codes or the fixed range of a field that the
request carries (R187, R190, R191; for the duration of an ALTER, log entry 12). -/
def BadValues (code : Byte) (args : List Byte) : Prop :=
  let byte (i : Nat) : Nat := (args.getD i 0#8).toNat
  let pair (i : Nat) : Nat := byte i * 256 + byte (i + 1)
  let modulus : Nat := byte 3 * 65536 + pair 4
  let rate : Nat := pair 1 * 65536 + pair 3
  match code.toNat with
  | 0x03 | 0x04 => 128 ≤ byte 0
  | 0x10 => 4 ≤ byte 0 ∨ 2 ≤ byte 1
      ∨ (byte 1 = 0 ∧ (3 ≤ byte 2 ∨ modulus < 16 ∨ 65536 < modulus ∨ 2 ≤ byte 6 ∨ (byte 6 = 1 ∧ modulus ≤ pair 7)
        ∨ 2 ≤ byte 10 ∨ 2 ≤ byte 12))
  | 0x11 | 0x12 | 0x13 | 0x16 | 0x34 | 0x35 => 4 ≤ byte 0
  | 0x14 => 4 ≤ byte 0 ∨ pair 1 = 0 ∨ (1023 < pair 1 ∧ pair 1 < 65536 - 1023)
  | 0x15 => 4 ≤ byte 0 ∨ (500000 < rate ∧ rate < 4294967296 - 500000)
  | 0x20 => 32 ≤ byte 0 ∨ (4 ≤ byte 1 ∧ byte 1 ≠ 255) ∨ 2 ≤ byte 2 ∨ 2 ≤ byte 3 ∨ 3 ≤ byte 4 ∨ 2 ≤ byte 5
  | 0x21 => 32 ≤ byte 0 ∨ 4 ≤ byte 1
  | 0x22 | 0x23 => 32 ≤ byte 0
  | 0x30 => 4 ≤ byte 0 ∨ 4 ≤ byte 1 ∨ (byte 1 ≠ 3 ∧ 32 ≤ byte 2) ∨ (byte 1 = 1 ∧ pair 7 < 10)
      ∨ (byte 1 ≠ 0 ∧ 3 ≤ byte 9) ∨ 2 ≤ byte 10 ∨ 2 ≤ byte 11 ∨ 2 ≤ byte 14
  | 0x31 =>
      let present (i : Nat) : Prop := (args.getD 2 0#8).getLsbD i = true
      512 ≤ pair 0 ∨ 128 ≤ byte 2 ∨ (present 2 ∧ pair 7 < 10) ∨ (present 3 ∧ 3 ≤ byte 9) ∨ (present 4 ∧ 2 ≤ byte 10)
        ∨ (present 5 ∧ 2 ≤ byte 11) ∨ 2 ≤ byte 14
  | 0x32 => 512 ≤ pair 0 ∨ 2 ≤ byte 2
  | 0x33 => 32 ≤ byte 0 ∨ (2047 < pair 1 ∧ pair 1 < 65536 - 2048) ∨ 2 ≤ byte 3
  | 0x36 => 4 ≤ byte 0 ∨ 32 ≤ byte 1
  | 0x38 | 0x40 | 0x63 => 512 ≤ pair 0
  | 0x39 => 4 ≤ byte 0 ∨ 512 ≤ pair 3
  | 0x62 => 2 ≤ byte 0
  | _ => False

/-- The 13 argument bytes of a CONFIG_AXIS with the CONFIGURE choice (R191). -/
def configAxisArgs (a : AxisId) (c : AxisConfig) : List Byte :=
  [byteOf a, 0#8, c.source.code] ++ bytesOf 3 c.modulus ++ [boolByte c.indexPoint.isSome]
    ++ bytesOf 2 (c.indexPoint.getD 0) ++ [c.tolerance, boolByte c.invert, c.filter, c.faultAction.code]

/-- The values of a CONFIG_AXIS are in range (R33). -/
abbrev AxisConfig.InRange (c : AxisConfig) : Prop :=
  16 ≤ c.modulus ∧ c.modulus ≤ 65536 ∧ ∀ p ∈ c.indexPoint, p < c.modulus

/-- The 13 argument bytes of a CONFIG_AXIS with the OFF choice (R191). -/
def offAxisArgs (a : AxisId) : List Byte := [byteOf a, 1#8] ++ List.replicate 11 0#8

/-- The six argument bytes of a CONFIG_OUTPUT (R191). -/
def configOutputArgs (c : OutputConfig) : List Byte :=
  [byteOf c.output, bindingByte c.binding, c.drive.code, c.polarity.code, c.safeLevel.code,
    boolByte c.toggleInitial]

/-- The 15 argument bytes of a PLACE of an entry (R191). -/
def placeArgs (e : Entry) (close : Bool) : List Byte :=
  [byteOf e.axis, e.kind.code, (e.output.map (fun o => byteOf o)).getD 0#8] ++ bytesOf 2 e.on
    ++ bytesOf 2 (e.off?.getD 0) ++ bytesOf 2 (e.duration?.getD 0)
    ++ [(e.qualifier?.map Qualifier.code).getD 0#8, boolByte e.oncePerRev, boolByte e.notify]
    ++ bytesOf 2 e.label.toNat ++ [boolByte close]

/-- The values of an entry fit their fields (R107, check 1), and a MARK has notify set (R12). -/
abbrev Entry.InRange (e : Entry) : Prop :=
  e.on < 65536 ∧ (∀ p ∈ e.off?, p < 65536) ∧ (∀ d ∈ e.duration?, 10 ≤ d ∧ d ≤ 65535)
    ∧ (e.kind = .mark → e.notify = true)

/-- The 15 argument bytes of an ALTER (R191). -/
def alterArgs (h : Nat) (v : AlterValues) (close : Bool) : List Byte :=
  bytesOf 2 h ++ [v.presence] ++ v.bytes ++ [boolByte close]

/-- The values of an ALTER fit their fields (R107, check 1). -/
abbrev AlterValues.InRange (v : AlterValues) : Prop :=
  (∀ p ∈ v.on, p < 65536) ∧ (∀ p ∈ v.off, p < 65536) ∧ (∀ d ∈ v.duration, 10 ≤ d ∧ d ≤ 65535)

/-- The pair (A, B) at a place of the forward sequence 00, 10, 11, 01 (R46). -/
def forwardPair : Fin 4 → Bool × Bool
  | 0 => (false, false)
  | 1 => (true, false)
  | 2 => (true, true)
  | 3 => (false, true)

/-! ### Steps -/

/-- The axis takes a step after which it is in the same state: RUNNING, or HALTING with more than one count left (R30,
R58). -/
abbrev Axis.Steps (x : Axis) : Prop :=
  x.backlog ≠ 0 ∧ (x.state = .running ∨ (x.state = .halting ∧ 2 ≤ x.backlog.natAbs)) ∧ x.position < x.modulus

/-- The axis takes the last count of its halt (R39), and is no ENCODER axis, so that its entries keep what the step gives
them. -/
abbrev Axis.StepsLast (x : Axis) : Prop :=
  (x.backlog = 1 ∨ x.backlog = -1) ∧ x.state = .halting ∧ x.source ≠ .encoder ∧ x.position < x.modulus

/-- The step of the axis crosses the wrap point (R60). -/
abbrev Axis.Wraps (x : Axis) : Prop := if 0 < x.backlog then x.position + 1 = x.modulus else x.position = 0

/-- The point a step of the axis crosses: the new position of a forward step, the old one of a reverse step (R59). -/
abbrev Axis.stepPoint (x : Axis) : Nat :=
  if 0 < x.backlog then (if x.position + 1 = x.modulus then 0 else x.position + 1) else x.position

/-- The direction that a fire of the axis's step records (R14, R59). -/
abbrev Axis.stepDir (x : Axis) : FireDir := if 0 < x.backlog then .forward else .reverse

/-- The revolution count after the wrap part of the axis's step (R60). -/
abbrev Axis.stepRevolution (x : Axis) : BitVec 16 :=
  if x.Wraps then (if 0 < x.backlog then x.revolution + 1#16 else x.revolution - 1#16) else x.revolution

/-- A wrap of axis `a` leaves the entry of slot `h` and its lead alone: its list is open, or no item names either. -/
abbrev State.WrapSpares (s : State) (a : AxisId) (h : Nat) : Prop :=
  (s.axis a).Wraps → (s.list a).closed = true → ∀ i ∈ (s.list a).items, i.names h = false
    ∧ ∀ o, (s.slot h).entry?.bind Entry.output = some o → i.leads o = false

/-- The halt that the step of axis `a` ends leaves the entry of slot `h` alone: a wrap has applied the closed list before, or
no item of it names the entry or its output (R39, R119). -/
abbrev State.HaltSpares (s : State) (a : AxisId) (h : Nat) : Prop :=
  ¬ (s.axis a).Wraps → (s.list a).closed = true → ∀ i ∈ (s.list a).items, i.names h = false
    ∧ ∀ o, (s.slot h).entry?.bind Entry.output = some o → i.leads o = false

/-- The entry of slot `h` keeps what the step of axis `a` gives it: the axis does not halt by the step, or its halt leaves
the entry alone. -/
abbrev State.StepKeeps (s : State) (a : AxisId) (h : Nat) : Prop :=
  (s.axis a).Steps ∨ ((s.axis a).StepsLast ∧ s.HaltSpares a h)

/-- A wrap of axis `a` applies its list: it is closed, and it names no handle twice (R105). -/
abbrev State.WrapApplies (s : State) (a : AxisId) : Prop :=
  (s.axis a).Wraps ∧ (s.list a).closed = true ∧ ((s.list a).items.filterMap Item.handle?).Nodup

/-- What slot `h` holds when parts 3 and 4 of the step of axis `a` judge it: the LIVE entry `e`, its check value consistent
where `ok`, with the run-time fields `r` (R60, R120). Without a wrap that is what the slot held. On a wrap spent has been
cleared, and an item of a closed list has done what its kind asks for: a SET_LEAD of the entry's output ends its
activity, a PLACE makes a STAGED entry LIVE, an ALTER writes its values. -/
inductive State.InForce (s : State) (a : AxisId) (h : Nat) : Entry → Bool → Run → Prop where
  | untouched (e : Entry) (ok : Bool) (r : Run) (live : s.slot h = .live e ok r) (still : ¬ (s.axis a).Wraps) :
      InForce s a h e ok r
  | spared (e : Entry) (ok : Bool) (r : Run) (live : s.slot h = .live e ok r) (wraps : (s.axis a).Wraps)
      (unnamed : s.WrapSpares a h) : InForce s a h e ok { r with spent := false }
  | led (e : Entry) (ok : Bool) (r : Run) (o : OutId) (lead : Int) (live : s.slot h = .live e ok r)
      (applies : s.WrapApplies a) (item : .setLead o lead ∈ (s.list a).items) (target : e.output = some o)
      (unnamed : ∀ i ∈ (s.list a).items, i.names h = false) :
      InForce s a h e ok { r with activity := .idle, spent := false }
  | placed (e : Entry) (staged : s.slot h = .staged e true) (applies : s.WrapApplies a)
      (item : .place h ∈ (s.list a).items) : InForce s a h e true Run.fresh
  | altered (e : Entry) (r : Run) (v : AlterValues) (live : s.slot h = .live e true r) (applies : s.WrapApplies a)
      (item : .alter h v ∈ (s.list a).items) :
      InForce s a h (v.writeTo e) true { r with activity := .idle, spent := false }

/-- The state without the handings of `h` that the channels have left waiting. -/
def State.withoutHandings (s : State) (h : Nat) : State :=
  { s with channels := s.channels.map (fun c => match c.rest with
    | .hand k :: rest => if k = h then { c with rest := rest } else c
    | _ => c) }

/-! ### What a fire and a fault leave -/

/-- The run-time fields that a fire of an entry leaves (R72): once per revolution it is spent, the pass count and last
fire are written, and with notify set the handing of R131 is taken with it unless the work has stopped before it. -/
def fireLeaves (r : Run) (e : Entry) (revolution : BitVec 16) (dir : FireDir) (activity : Activity) (handed : Bool) :
    Run where
  activity := activity
  spent := r.spent || e.oncePerRev
  log :=
    { passCount := r.log.passCount + 1#16
      lastFire := some ⟨revolution, dir⟩
      notifyPending := r.log.notifyPending || (e.notify && handed)
      missed := if e.notify = true ∧ handed = true ∧ r.log.notifyPending = true ∧ r.log.missed < 255
        then r.log.missed + 1 else r.log.missed }

/-- In `t` every LIVE WINDOW that axis `a` had in `s` has been settled (R73, R75): it fires with direction NONE where it
contains the position, is IDLE and is not spent, and stays as it was otherwise; an inconsistent one is fenced. Every other
slot is as it was. -/
def State.WindowsSettled (s t : State) (a : AxisId) : Prop :=
  (∀ h < Config.slotCount, ∀ e ok r o off, s.slot h = .live e ok r → e.axis = a → e.action = .window o off →
    (ok = false → t.slot h = .fenced e false r.log)
    ∧ (ok = true → t.inWindow e off = true → r.activity = .idle → r.spent = false →
        t.slot h = .live e true (fireLeaves r e (s.axis a).revolution .none (.active none) true))
    ∧ (ok = true → t.inWindow e off = false ∨ r.activity ≠ .idle ∨ r.spent = true → t.slot h = s.slot h))
  ∧ ∀ h < Config.slotCount, (s.slot h).liveWith (fun e => e.axis == a && e.isWindow) = false → t.slot h = s.slot h

/-- In `t` every LIVE WINDOW that axis `a` had in `s` is as a jump leaves it (R76): settled where it contains the position,
and IDLE without a fire where it does not; an inconsistent one is fenced. -/
def State.WindowsJumped (s t : State) (a : AxisId) : Prop :=
  ∀ h < Config.slotCount, ∀ e ok r o off, s.slot h = .live e ok r → e.axis = a → e.action = .window o off →
    (ok = false → t.slot h = .fenced e false r.log)
    ∧ (ok = true → t.inWindow e off = true → r.activity = .idle → r.spent = false →
        t.slot h = .live e true (fireLeaves r e (s.axis a).revolution .none (.active none) true))
    ∧ (ok = true → t.inWindow e off = true → r.activity ≠ .idle ∨ r.spent = true → t.slot h = s.slot h)
    ∧ (ok = true → t.inWindow e off = false → t.slot h = .live e true { r with activity := .idle })

/-- In `t` the activity of every LIVE entry that axis `a` had in `s` has ended silently, and every other slot is as it was
(R78, R79). -/
def State.SilentlyEnded (s t : State) (a : AxisId) : Prop :=
  ∀ h < Config.slotCount, t.slot h = match s.slot h with
    | .live e ok r => if e.axis = a then .live e ok { r with activity := .idle } else .live e ok r
    | v => v

/-- `t` is the state in which an axis fault of axis `x`, met in state `s`, leaves the part (R55). -/
def FaultTaken (s t : State) (x : AxisId) (cause : FaultCause) (later : Bool) : Prop :=
  t.axis x = { s.axis x with
      state := .faulted, backlog := 0, remainder := 0, lastFault := cause.axisFault?, silentDue := later
      referenced := (s.axis x).referenced && (s.axis x).source != .encoder }
    ∧ (∀ y, y ≠ x → t.axis y = s.axis y)
    ∧ t.latched &&& reasonAxisChanged = reasonAxisChanged
    ∧ (t.list x).closed = false
    ∧ ((s.list x).closed = true → (t.list x).items = [] ∧ t.latched &&& reasonBatchApplied = reasonBatchApplied)
    ∧ (t.report.isSome = true)
    ∧ ((s.list x).closed = false → s.report = none →
        t.report = some ⟨cause, x, (s.axis x).tracked, (s.axis x).revolution, 0⟩)
    ∧ ((s.list x).closed = false → ∀ p, s.report = some p →
        t.report = some { p with further := if p.further < 255 then p.further + 1 else p.further })
    ∧ ((s.axis x).faultAction = .safe → t.condition = .safe
        ∧ (s.condition = .safe → ∀ o, (t.output o).safeHold = (s.output o).safeHold)
        ∧ (s.condition ≠ .safe → t.latched &&& reasonSafeEntered = reasonSafeEntered
            ∧ ∀ o, (t.output o).safeHold = true))
    ∧ ((s.axis x).faultAction = .passive → s.condition = .releasing →
        (∀ o, (t.output o).safeHold = ((s.output o).safeHold && (s.output o).binding != some x))
        ∧ ((∃ o, (s.output o).safeHold = true ∧ (s.output o).binding = some x) →
            t.condition = if t.anySafeHold then .releasing else .normal)
        ∧ ((∀ o, (s.output o).safeHold = true → (s.output o).binding ≠ some x) → t.condition = .releasing)
        ∧ (t.condition = .normal → t.latched &&& reasonSafeReleased = reasonSafeReleased))
    ∧ ((s.axis x).faultAction = .passive → s.condition ≠ .releasing → t.condition = s.condition
        ∧ ∀ o, (t.output o).safeHold = (s.output o).safeHold)
    ∧ (later = false → ∀ h < Config.slotCount, ∀ e ok r, t.slot h = .live e ok r → e.axis = x → r.activity = .idle)

/-! ### The invariants -/

/-- The slot table is in its canonical form (R1), and a running test visits handles of the table alone (R168). -/
def State.TableOk (s : State) : Prop :=
  Table.wf s.table = true ∧
    ∀ t, s.port.state.work? = some (.testing t) → ∀ h ∈ t.remaining, h < Config.slotCount

/-- What a slot's fields hold to each other: an ACTIVE entry is a WINDOW without a timer or a PULSE with one (R13,
R80), spent is set on once-per-revolution entries alone (R11), a MARK has notify set (R12), and an UNREAD slot is a
member of the notify set (R17, R130). -/
def SlotOk (v : Slot) : Prop :=
  (∀ e ∈ v.entry?, e.kind = .mark → e.notify = true) ∧
    match v with
    | .live e _ r =>
      (r.activity = .active none → e.kind = .window) ∧ (∀ d, r.activity = .active (some d) → e.kind = .pulse)
        ∧ (r.spent = true → e.oncePerRev = true)
    | .unread _ _ l => l.notifyPending = true
    | _ => True

/-- Every slot's fields agree. -/
def State.EntriesOk (s : State) : Prop := ∀ h, SlotOk (s.slot h)

/-- Whether a slot holds an ACTIVE entry of a kind that targets an output. -/
def Slot.drives (k : Kind) (o : OutId) (v : Slot) : Bool :=
  v.isActive && v.entry?.any (fun e => e.kind == k && e.targets o)

/-- Whether a task is claim 2 of the fence of an ACTIVE entry of a kind that targets an output. -/
def Task.undrives (k : Kind) (o : OutId) : Task → Bool
  | .fenceOutput _ o' k' wasActive => wasActive && k' == k && o' == o
  | _ => false

/-- The claims of fences that the executing request has still to take (R160, R161). -/
def PortState.claims (p : PortState) : List Task :=
  match p.work? with
  | some (.claiming rest _ _) => rest
  | _ => []

/-- How many fences of ACTIVE entries of a kind that target an output have stopped before their claim 2, those of channels
and those of the executing request (R160). -/
def State.fencesWaiting (s : State) (k : Kind) (o : OutId) : Nat :=
  (axisIds.map (fun a => (s.channel a).rest.countP (Task.undrives k o))).sum
    + s.port.state.claims.countP (Task.undrives k o)

/-- The counts of every output are the numbers of ACTIVE entries that target it (R88), with those whose fence has stopped
before it reaches the output (R160). -/
def State.CountsOk (s : State) : Prop :=
  s.TableOk ∧ ∀ o,
    (s.output o).windowCount
        = handles.countP (fun h => (s.slot h).drives .window o) + s.fencesWaiting .window o
      ∧ (s.output o).pulseCount = handles.countP (fun h => (s.slot h).drives .pulse o) + s.fencesWaiting .pulse o

/-- The record of an axis keeps to the values of R27 and to what R29, R49 and R50 say of its states. -/
def Axis.Ok (x : Axis) : Prop :=
  16 ≤ x.modulus ∧ x.modulus ≤ 65536 ∧ x.position < x.modulus ∧ (∀ p ∈ x.indexPoint, p < x.modulus)
    ∧ -500000 ≤ x.rate ∧ x.rate ≤ 500000 ∧ x.remainder.natAbs ≤ 9999 ∧ x.corrections ≤ 255
    ∧ x.backlog.natAbs ≤ Config.backlogLimit
    ∧ (x.state = .off ∨ x.state = .halted ∨ x.state = .faulted → x.backlog = 0)
    ∧ (x.state ≠ .running → x.remainder = 0)
    ∧ (x.state = .off → x.referenced = false)
    ∧ (x.state ≠ .off → x.source ≠ .encoder → x.referenced = true)

/-- Every axis record is sound. -/
def State.AxesOk (s : State) : Prop := ∀ a, (s.axis a).Ok

/-- No entry of an UNREFERENCED axis is ACTIVE, unless a fault's silent end is still to come (R29, R79). -/
def State.ActivityOk (s : State) : Prop :=
  s.TableOk ∧ s.AxesOk ∧
    ∀ h e ok r, s.slot h = .live e ok r → r.activity ≠ .idle →
      (s.axis e.axis).referenced = true ∨ (s.axis e.axis).silentDue = true
        ∨ Task.silentEnd ∈ (s.channel e.axis).rest

/-- A list holds at most 32 items (R104, R105) and is closed only while its axis is RUNNING or HALTING (R104), or while
its channel has stopped within its application (R120). -/
def State.ListShapesOk (s : State) : Prop :=
  ∀ a, (s.list a).items.length ≤ Config.listCapacity
    ∧ ((s.list a).closed = true → (s.axis a).stepping = true ∨ s.applying a = true)

/-- The output a SET_LEAD item names. -/
def Item.leadOf? : Item → Option OutId
  | .setLead o _ => some o
  | _ => none

/-- An item of the list of an axis agrees with the table and the outputs (R105). -/
def State.ItemOk (s : State) (a : AxisId) : Item → Prop
  | .place h => ∃ e ok, s.slot h = .staged e ok ∧ e.axis = a
  | .alter h _ => ∃ e ok r, s.slot h = .live e ok r ∧ e.axis = a
  | .retire h => ∃ e ok r, s.slot h = .live e ok r ∧ e.axis = a
  | .setLead o _ => (s.output o).binding = some a

/-- The pending lists agree with the table (R105): every item names an entry in the state its kind asks for, or an
output bound to the list's axis; no handle and no output is named twice; every STAGED entry has its PLACE item. -/
def State.ListsOk (s : State) : Prop :=
  (∀ a, ∀ i ∈ (s.list a).items, s.ItemOk a i)
    ∧ (∀ a, ((s.list a).items.filterMap Item.handle?).Nodup)
    ∧ (∀ a, ((s.list a).items.filterMap Item.leadOf?).Nodup)
    ∧ (∀ h e ok, s.slot h = .staged e ok → Item.place h ∈ (s.list e.axis).items)

/-- The output of a claim 2 that waits is bound, with the drive type that the kind of the fenced entry asks for (R7). -/
def State.FenceFits (s : State) : Task → Prop
  | .fenceOutput _ o kind _ => (s.output o).binding ≠ none ∧ (s.output o).drive.fits kind = true
  | _ => True

/-- Every STAGED, LIVE or FENCED entry that has an output targets one bound to the entry's axis, of the drive type its
kind asks for (R7), and the output of a fence that has stopped before its claim 2 is still bound and of that drive type
(R86, R88, R99). -/
def State.BindingsOk (s : State) : Prop :=
  s.TableOk ∧ (∀ h, (s.slot h).inService (fun e => !s.outputFits e) = false)
    ∧ (∀ a, ∀ t ∈ (s.channel a).rest, s.FenceFits t) ∧ (∀ t ∈ s.port.state.claims, s.FenceFits t)

/-- The safe holds agree with the device condition (R144), STOP is recognized active in SAFE alone (R145), and until its
reset has ended the device is SAFE (R156) and no request executes (R172, R185). -/
def State.SafeOk (s : State) : Prop :=
  (s.condition = .normal → s.anySafeHold = false)
    ∧ (s.condition = .safe → ∀ o, (s.output o).safeHold = true)
    ∧ (s.condition = .releasing → s.anySafeHold = true)
    ∧ (s.stopActive = true → s.condition = .safe)
    ∧ (s.phase = .held → s.condition = .safe ∧ s.port.state = .idle)

/-- The port record keeps to R172: in IDLE a response is held exactly when a last tag is, and it carries that tag; in
EXECUTING the last tag is the executing request's and the slot is empty; in DRAINING both are clear. A response that
is not DONE has no payload (R180). The latched set holds latched reasons alone (R137). Between commands no choice of
stop points stands (log entry 13). -/
def State.PortOk (s : State) : Prop :=
  (match s.port.state with
    | .idle => s.port.slot.map Response.tag = s.port.lastTag
    | .executing r => s.port.lastTag = some r.tag ∧ s.port.slot = none
    | .draining _ => s.port.lastTag = none ∧ s.port.slot = none)
    ∧ (∀ r ∈ s.port.slot, r.status ≠ .done → r.payload = [])
    ∧ s.latched &&& (reasonNotify ||| reasonFault) = 0#7
    ∧ s.stops = []

end Sys2Proof.Machine
end

