-- ==== Sys2Proof/Certificates/Slice0/Obligations.lean ====
section
/-! DEFINITION. The statements for the provers. Requests are written as the bytes of their frames after the code:
`frameRest code tag args`. -/

open Sys2Proof Sys2Proof.Machine

/-! ### The queue -/

/-- A step takes the command at the front of the queue and carries it out on the state with the queue's rest. On an
empty queue the first channel with a piece of work in progress ends it (R57), else the request that executes goes on:
its block takes the work that waits, or it takes the claims it has stopped before (R180). The part idles where nothing
waits. (What a step does on an empty queue is the model's choice: log entries 8 and 13.) -/
def Obligations.StepTakesTheFrontCommand : Prop :=
  ∀ (s : State) (c : Instr) (rest : List Instr),
    step { s with pending := c :: rest } = exec c { s with pending := rest }
      ∧ (s.pending = [] →
        (∀ a, s.busy a = true → (∀ b < a, s.busy b = false) → step s = .next (s.finish a))
        ∧ ((∀ a, s.busy a = false) → ∀ code tag w,
          s.port.state = .executing ⟨code, tag, w⟩ ∨ s.port.state = .draining ⟨code, tag, w⟩ →
          (∀ args l pace, w = .waiting args l pace → step s = .next (s.runBlock code (blockOf code l) args pace))
          ∧ ((∀ args l pace, w ≠ .waiting args l pace) → step s = .next (s.withOutcome (s.resumeWork w))))
        ∧ ((∀ a, s.busy a = false) → (∀ w, s.port.state.work? = some w → w.waits = false) → step s = .next s))

/-- Every command, with any operands and in any state, takes a next state and leaves the waiting commands as they are:
the part never stops. (That nothing changes where the event does not occur is the model's choice: log entry 2.) -/
def Obligations.EveryCommandAnswersANextState : Prop :=
  ∀ (c : Instr) (s : State), ∃ t, exec c s = .next t ∧ t.pending = s.pending

/-! ### The port -/

/-- R177: a request frame that fails the framing check joins FRAMING to the rejected set, one that fails the CRC check
joins CRC, and nothing else changes, whatever the port state. -/
def Obligations.BadFramesOnlyJoinTheRejectedSet : Prop :=
  ∀ (code : Byte) (rest : List Byte) (l : Lines) (pace : Pace) (s : State),
    (requestCommand code rest l pace).wf = true → s.phase = .serving → s.transaction ≠ .unserved →
    let n := (rest.getD 1 0#8).toNat
    let badFraming := rest.length < 2 ∨ 60 < n ∨ rest.length + 1 < n + 4
    let badCrc := rest.getD (2 + n) 0#8 ≠ crc8 (code :: rest.take (2 + n))
    (badFraming → exec (requestCommand code rest l pace) s = .next { s with
        transaction := .closed
        port := { s.port with rejected := { s.port.rejected with framing := true } } })
      ∧ (¬ badFraming → badCrc → exec (requestCommand code rest l pace) s = .next { s with
        transaction := .closed
        port := { s.port with rejected := { s.port.rejected with crc := true } } })

/-- R178, R180: a frame that passes the checks of R177, padding or not, is rejected with BUSY while a request executes
or drains, is passed over as a duplicate when it carries the last accepted tag, and is accepted otherwise. An accepted
request of known code and right length whose block is to work later waits with its arguments, and where the block works
at the acceptance it does just what it would do then, stopping where it would stop. (When the block works and where its
work stops are operands: log entry 13.) -/
def Obligations.GoodFramesAreBusyDuplicateOrAccepted : Prop :=
  ∀ (code tag : Byte) (args padding : List Byte) (l : Lines) (pace : Pace) (s : State),
    args.length ≤ 60 → s.phase = .serving → s.transaction ≠ .unserved →
    let c (pace : Pace) := requestCommand code (frameRest code tag args ++ padding) l pace
    (c pace).wf = true →
    (s.port.state ≠ .idle → exec (c pace) s = .next { s with
        transaction := .closed
        port := { s.port with rejected := { s.port.rejected with busy := true } } })
      ∧ (s.port.state = .idle → s.port.lastTag = some tag → exec (c pace) s = .next { s with transaction := .closed })
      ∧ (s.port.state = .idle → s.port.lastTag ≠ some tag →
        (∃ t w, exec (c pace) s = .next t ∧ t.port = ⟨.executing ⟨code, tag, w⟩, none, some tag, ⟨false, false, false⟩⟩)
        ∧ (argLength code = some args.length → exec (c { pace with workLater := true }) s = .next (s.answers code tag
            (.waiting args (if code = 0x10#8 then l else ⟨false, false, false⟩) { pace with workLater := true })))
        ∧ (∃ t, exec (c { pace with workLater := true }) s = .next t
          ∧ exec (c { pace with workLater := false }) s = .next t.takeWork))

/-- R174, R180, R187: the bytes of a transaction are taken by their beginning, for no whole byte, a break, a poll or a
request frame, and a command that names them otherwise does what they say. An accepted code that names no request
answers UNKNOWN_REQUEST, a known code with another length than its own BAD_LENGTH, and one whose arguments hold a value
outside the codes or the fixed range of a field BAD_VALUE: a number, an enumerated or yes/no byte, a set or mask byte,
wherever it stands. None of them changes another block. (That a duration an ALTER gives is in range whatever the kind of
the entry is DEDUCED: log entry 12.) (Stated where the block works at the acceptance; the other pace is an operand: log
entry 13.) -/
def Obligations.MalformedRequestsChangeNothing : Prop :=
  ∀ (code tag : Byte) (args rest : List Byte) (l : Lines) (pace : Pace) (s : State),
    (commandOfBytes [] l pace = .outgoingFrame
      ∧ (rest.take 8 = List.replicate 8 0xFF#8 → commandOfBytes rest l pace = .portBreak (rest.drop 8))
      ∧ commandOfBytes (0x00#8 :: rest) l pace = .poll rest
      ∧ ((code :: rest).take 8 ≠ List.replicate 8 0xFF#8 → code ≠ 0x00#8 →
        commandOfBytes (code :: rest) l pace = requestCommand code rest l pace)
      ∧ exec (.unknownRequest code rest) s
        = exec (commandOfBytes (code :: rest) ⟨false, false, false⟩ .prompt) s)
    ∧ (args.length ≤ 60 → s.Ready tag →
      ((Instr.unknownRequest code (frameRest code tag args)).wf = true →
        exec (.unknownRequest code (frameRest code tag args)) s =
          .next (s.answers code tag (bare .unknownRequest)))
      ∧ (∀ n, argLength code = some n → args.length ≠ n →
        exec (requestCommand code (frameRest code tag args) l pace) s = .next (s.answers code tag (bare .badLength))))
    ∧ (s.ReadyAlone tag → argLength code = some args.length → BadValues code args →
      exec (requestCommand code (frameRest code tag args) l .prompt) s = .next (s.answers code tag (bare .badValue)))

/-- R175, R176: a poll changes no field of the port record and no other block; a break clears the rejected set, the
response slot and the last accepted tag, and a request that executes drains, its work as it was. -/
def Obligations.PollsChangeNothingAndBreaksClearThePort : Prop :=
  ∀ (rest : List Byte) (s : State),
    exec (.poll rest) s = .next { s with transaction := .closed }
    ∧ (s.phase = .serving → s.transaction ≠ .unserved → exec (.portBreak rest) s = .next { s with
      transaction := .closed
      port := ⟨match s.port.state with
        | .idle => .idle
        | .executing r => .draining r
        | .draining r => .draining r, none, none, ⟨false, false, false⟩⟩ })

/-- R137, R171, R173, R174, R188: at the falling edge of SEL a serving port sends tag, status, rejected set, attention
summary, length, payload and CRC of its busy, response or empty frame, and the record does not change; a transaction
that ends after no whole byte leaves SDO at high impedance and nothing else. NOTIFY is present exactly while the notify
set has a member, FAULT exactly while the fault report is valid, and the other reasons exactly while they are latched.
(That OUTGOING_FRAME is the edge of SEL which the state of the transaction leaves is the model's choice: log entry 6.)
-/
def Obligations.OutgoingFrameShowsPortAndAttention : Prop :=
  ∀ s : State,
    (s.phase = .serving → s.transaction = .closed →
      let rejected : Byte := (if s.port.rejected.framing then 1#8 else 0#8)
        ||| (if s.port.rejected.crc then 2#8 else 0#8) ||| (if s.port.rejected.busy then 4#8 else 0#8)
      let attn : Bool := (s.presentSet &&& s.mask) != 0#7
      let summary : Byte := s.presentSet.setWidth 8 ||| (if attn then 0x80#8 else 0#8)
      let body : List Byte := match s.port.state, s.port.slot with
        | .executing r, _ => [r.tag, 0x02#8, rejected ||| 0x80#8, summary, 0#8]
        | .draining _, _ => [0#8, 0x02#8, rejected, summary, 0#8]
        | .idle, some r => [r.tag, r.status.code, rejected ||| 0x80#8, summary, byteOf r.payload.length] ++ r.payload
        | .idle, none => [0#8, 0x01#8, rejected, summary, 0#8]
      exec .outgoingFrame s = .next { s with transaction := .served (body ++ [crc8 body]) })
    ∧ (s.transaction ≠ .closed → exec .outgoingFrame s = .next { s with transaction := .closed })
    ∧ (∀ n, Transaction.sdoByte .closed n = none ∧ Transaction.sdoByte .unserved n = none)
    ∧ (s.latched &&& 0b0000011#7 = 0#7 →
      (s.presentSet &&& 0b0000001#7 ≠ 0#7
          ↔ ∃ h < Config.slotCount, ∃ log, (s.slot h).log? = some log ∧ log.notifyPending = true)
      ∧ (s.presentSet &&& 0b0000010#7 ≠ 0#7 ↔ s.report.isSome = true)
      ∧ s.presentSet &&& 0b1111100#7 = s.latched)

/-- R179, R142, R139, R140: a completion takes the work that the request still has to do first; where its outcome is
then in, it fills the slot, sets REQUEST_DONE and then makes the request's own effect on attention; in DRAINING the
response is discarded and REQUEST_DONE is not set. Where the work has stopped again there is no completion. (That the
completion takes waiting work is the model's choice, log entry 13; that the effect is made in DRAINING too is DEDUCED,
log entry 17.) -/
def Obligations.CompletionFillsTheSlot : Prop :=
  ∀ (s : State) (code tag : Byte) (status : Status) (payload : List Byte) (effect : CompletionEffect),
    let t := s.takeWork
    let onLatched (x : ReasonSet) : ReasonSet := match effect with
      | .acknowledge r => x &&& ~~~r
      | _ => x
    let newMask : ReasonSet := match effect with
      | .setMask m => m
      | _ => t.mask
    ((∀ w, s.port.state.work? = some w → w.waits = false) → t = s)
      ∧ ((∀ status payload effect, t.port.state.work? ≠ some (.ready status payload effect)) →
        exec .requestCompletion s = .next t)
      ∧ (t.port.state = .executing ⟨code, tag, .ready status payload effect⟩ →
        exec .requestCompletion s = .next { t with
          port := { t.port with state := .idle, slot := some ⟨tag, status, if status = .done then payload else []⟩ }
          latched := onLatched (t.latched ||| reasonRequestDone)
          mask := newMask })
      ∧ (t.port.state = .draining ⟨code, tag, .ready status payload effect⟩ →
        exec .requestCompletion s = .next { t with
          port := { t.port with state := .idle, slot := none }
          latched := onLatched t.latched
          mask := newMask })

/-- R183: NOP is accepted like every request, taking the tag and emptying the rejected set and the slot, and completes
DONE with an empty payload and REQUEST_DONE set, whenever its block works. (That a completion takes block work which
still waits is the model's choice: log entry 13.) -/
def Obligations.NopTakesATagAndCompletesDone : Prop :=
  ∀ (s : State) (tag : Byte) (pace : Pace), s.Ready tag →
    exec (.nop ⟨frameRest 0x01#8 tag [], .prompt⟩) s = .next (s.answers 0x01#8 tag (bare .done))
      ∧ ∃ t w, exec (.nop ⟨frameRest 0x01#8 tag [], pace⟩) s = .next t ∧ t = s.answers 0x01#8 tag w
        ∧ exec .requestCompletion t = .next { s with
          transaction := .closed
          port := ⟨.idle, some ⟨tag, .done, []⟩, some tag, ⟨false, false, false⟩⟩
          latched := s.latched ||| reasonRequestDone }

/-- R139, R140: ACK_ATTENTION and SET_ATTENTION_MASK answer DONE with their effect kept for the completion, and a set
with bit 7 is refused with BAD_VALUE. (Stated where the block works at the acceptance; the other pace is an operand: log
entry 13.) -/
def Obligations.AcknowledgeAndMaskWaitForTheCompletion : Prop :=
  ∀ (s : State) (tag : Byte) (r : ReasonSet) (b : Byte), s.Ready tag → 128 ≤ b.toNat →
    exec (.ackAttention ⟨frameRest 0x03#8 tag [r.setWidth 8], .prompt⟩) s =
        .next (s.answers 0x03#8 tag (.ready .done [] (.acknowledge r)))
      ∧ exec (.setAttentionMask ⟨frameRest 0x04#8 tag [r.setWidth 8], .prompt⟩) s =
        .next (s.answers 0x04#8 tag (.ready .done [] (.setMask r)))
      ∧ exec (.ackAttention ⟨frameRest 0x03#8 tag [b], .prompt⟩) s = .next (s.answers 0x03#8 tag (bare .badValue))
      ∧ exec (.setAttentionMask ⟨frameRest 0x04#8 tag [b], .prompt⟩) s = .next (s.answers 0x04#8 tag (bare .badValue))

/-! ### Device reset -/

/-- R6, R27, R85, R104, R138, R144, R163, R172: a device reset gives every block the reset values the spec states; SDO
of a transaction it meets stays at high impedance (R185). -/
def Obligations.DeviceResetGivesTheResetValues : Prop :=
  ∀ s : State, ∃ t, exec .deviceReset s = .next t
    ∧ (∀ h, t.slot h = .free)
    ∧ (∀ a, { t.axis a with lines := ⟨false, false, false⟩ } =
        { state := .off, source := .encoder, modulus := 3600, position := 0, revolution := 0#16
          referenced := false, indexPoint := none, tolerance := 4#8, invert := false, filter := 10#8
          faultAction := .safe, rate := 0, remainder := 0, backlog := 0, corrections := 0, lastFault := none
          lines := ⟨false, false, false⟩, silentDue := false })
    ∧ (∀ a, t.list a = ⟨[], false, 0#8⟩)
    ∧ (∀ o, t.output o =
        { binding := none, drive := .level, polarity := .activeHigh, safeLevel := .low, toggleInitial := false
          mode := .follow, lead := 0, windowCount := 0, pulseCount := 0, latch := false, safeHold := true
          faultHold := false, held := false } ∧ t.pinLevel o = false)
    ∧ t.latched = 0#7 ∧ t.mask = 0b0111111#7 ∧ t.presentSet = 0#7 ∧ t.attnAsserted = false
    ∧ t.condition = .safe ∧ t.report = none ∧ (∀ a, t.channel a = ⟨[], []⟩)
    ∧ t.port = ⟨.idle, none, none, ⟨false, false, false⟩⟩
    ∧ (s.transaction ≠ .closed → t.transaction = .unserved)
    ∧ t.pending = s.pending

/-- R27, R145, R156, R185: the end of a reset loads the levels of the inputs and sets no attention reason; 50 µs later
the port serves the transactions whose SEL falls from then on, and before that it serves none. -/
def Obligations.ResetEndsAndThenThePortServes : Prop :=
  ∀ (s : State) (l : Vector Lines 4) (stop : Bool) (pace : Pace),
    (s.phase = .held → ∃ t, exec (.endOfReset l stop) s = .next t
      ∧ t = { s with phase := .delay, stopActive := stop, axes := t.axes }
      ∧ ∀ a, t.axis a = { s.axis a with lines := l[a] })
      ∧ (s.phase = .delay → exec .portServiceDelayEnd s = .next { s with phase := .serving })
      ∧ (s.phase ≠ .serving → s.transaction = .closed → exec .outgoingFrame s = .next { s with transaction := .unserved })
      ∧ (∀ code rest, s.phase ≠ .serving ∨ s.transaction = .unserved →
          exec (requestCommand code rest (s.axis 0).lines pace) s = .next { s with transaction := .closed })

/-! ### Axes -/

/-- R33, R34: the first configuration of an OFF axis makes it HALTED at position 0 with the values of the request, keeps
its rate, and references a RATE or STEPPED axis; the OFF choice for an OFF axis changes nothing. A modulus outside 16 to
65,536 or an index point that is not below it is refused with BAD_VALUE in every axis state. (Stated where the block
works at the acceptance; the other pace is an operand: log entry 13.) -/
def Obligations.FirstConfigurationHaltsTheAxis : Prop :=
  ∀ (s : State) (tag : Byte) (a : AxisId) (c : AxisConfig) (l : Lines), s.ReadyAlone tag →
    let configure := exec (.configAxis ⟨frameRest 0x10#8 tag (configAxisArgs a c), .prompt⟩ l) s
    ((s.axis a).state = .off → c.InRange → configure =
      .next ((s.setAxis a
        { state := .halted, source := c.source, modulus := c.modulus, position := 0, revolution := 0#16
          referenced := c.source != .encoder, indexPoint := c.indexPoint, tolerance := c.tolerance
          invert := c.invert, filter := c.filter, faultAction := c.faultAction, rate := (s.axis a).rate
          remainder := 0, backlog := 0, corrections := 0, lastFault := none, lines := l
          silentDue := (s.axis a).silentDue }).answers 0x10#8 tag (bare .done)))
    ∧ ((s.axis a).state = .off →
      exec (.configAxis ⟨frameRest 0x10#8 tag (offAxisArgs a), .prompt⟩ l) s = .next (s.answers 0x10#8 tag (bare .done)))
    ∧ (c.modulus < 16777216 → (∀ p ∈ c.indexPoint, p < 65536) → ¬ c.InRange →
      configure = .next (s.answers 0x10#8 tag (bare .badValue)))

/-- R33, R35, R36: CONFIG_AXIS of a configured axis: refused while it runs, halts or is FAULTED; on a HALTED axis it
keeps the position under the same modulus, settling every window where it becomes a RATE or STEPPED axis and ending all
activity silently where it becomes an ENCODER axis, and starts again at 0 under another modulus or goes OFF when nothing
depends on the axis. (Stated where the block works at the acceptance; the other pace is an operand: log entry 13.) -/
def Obligations.ConfigAxisOfAConfiguredAxis : Prop :=
  ∀ (s : State) (tag : Byte) (a : AxisId) (c : AxisConfig) (l : Lines), s.ReadyAlone tag → c.InRange →
    let x := s.axis a
    let written := { x with
      source := c.source, modulus := c.modulus, indexPoint := c.indexPoint, tolerance := c.tolerance
      invert := c.invert, filter := c.filter, faultAction := c.faultAction }
    let configure := exec (.configAxis ⟨frameRest 0x10#8 tag (configAxisArgs a c), .prompt⟩ l) s
    let switchOff := exec (.configAxis ⟨frameRest 0x10#8 tag (offAxisArgs a), .prompt⟩ l) s
    let answer (t : State) (status : Status) : State := t.answers 0x10#8 tag (bare status)
    (x.state = .running ∨ x.state = .halting ∨ x.state = .faulted →
      configure = .next (answer s .wrongState) ∧ switchOff = .next (answer s .wrongState))
    ∧ (x.state = .halted → s.busy a = false → c.modulus = x.modulus → (c.source = .encoder ↔ x.source = .encoder) →
      configure = .next (answer (s.setAxis a written) .done))
    ∧ (x.state = .halted → s.busy a = false → c.modulus = x.modulus → x.source = .encoder → c.source ≠ .encoder →
      let t := answer ((s.setAxis a { written with referenced := true, corrections := 0 }).settleWindows a) .done
      configure = .next t ∧ s.WindowsSettled t a
        ∧ t.axes = (s.setAxis a { written with referenced := true, corrections := 0 }).axes ∧ t.latched = s.latched)
    ∧ (x.state = .halted → s.busy a = false → c.modulus = x.modulus → x.source ≠ .encoder → c.source = .encoder →
      let t := answer ((s.setAxis a { written with referenced := false }).silenceAxis a) .done
      configure = .next t ∧ s.SilentlyEnded t a)
    ∧ (x.state = .halted → s.axisHasDependents a = true →
      (c.modulus ≠ x.modulus → configure = .next (answer s .hasDependents))
        ∧ switchOff = .next (answer s .hasDependents))
    ∧ (x.state = .halted → s.axisHasDependents a = false →
      (c.modulus ≠ x.modulus → configure = .next (answer (s.setAxis a { written with
        position := 0, revolution := 0#16, corrections := 0, referenced := c.source != .encoder }) .done))
        ∧ switchOff = .next (answer (s.setAxis a { x with
          state := .off, position := 0, revolution := 0#16, referenced := false, backlog := 0, remainder := 0
          corrections := 0, lastFault := none }) .done))

/-- R38, R39, R40: HALT_AXIS of a RUNNING axis clears the remainder and waits while counts are left; with none left, and
no closed list and no release waiting, the axis is HALTED within the request, an ENCODER axis losing its reference and
its activity. A FAULTED axis becomes HALTED with its windows settled where it is REFERENCED. Whatever waits besides, the
axis is HALTED and the answer DONE, a closed list is applied with BATCH_APPLIED, and in RELEASING no output of the axis
keeps its safe hold. (Stated where the block works at the acceptance; the other pace is an operand: log entry 13.) -/
def Obligations.HaltAxisByState : Prop :=
  ∀ (s : State) (tag : Byte) (a : AxisId), s.ReadyAlone tag →
    let x := s.axis a
    let halt := exec (.haltAxis ⟨frameRest 0x12#8 tag [byteOf a], .prompt⟩) s
    let answer (t : State) (w : Work) : State := t.answers 0x12#8 tag w
    (x.state = .running → s.busy a = false → x.backlog ≠ 0 →
      halt = .next (answer (s.setAxis a { x with state := .halting, remainder := 0 }) (.halting a)))
    ∧ (x.state = .running → s.busy a = false → x.backlog = 0 → (s.list a).closed = false → s.condition ≠ .releasing →
      (x.source ≠ .encoder →
        halt = .next (answer (s.setAxis a { x with state := .halted, remainder := 0 }) (bare .done)))
      ∧ (x.source = .encoder →
        let t := answer ((s.setAxis a { x with state := .halted, remainder := 0, referenced := false }).silenceAxis a)
          (bare .done)
        halt = .next t ∧ s.SilentlyEnded t a))
    ∧ (x.state = .faulted → s.busy a = false → x.silentDue = false → s.condition ≠ .releasing →
      let t := answer ((s.setAxis a { x with state := .halted }).settleWindows a) (bare .done)
      halt = .next t ∧ t.axes = (s.setAxis a { x with state := .halted }).axes ∧ t.latched = s.latched
        ∧ (x.referenced = true → s.WindowsSettled t a) ∧ (x.referenced = false → ∀ h, t.slot h = s.slot h))
    ∧ ((x.state = .running ∧ x.backlog = 0) ∨ x.state = .faulted → s.busy a = false → ∃ t, halt = .next t
      ∧ (t.axis a).state = .halted ∧ t.port = (answer s (bare .done)).port ∧ (∀ b, b ≠ a → t.axis b = s.axis b)
      ∧ (x.state = .running → (t.list a).closed = false ∧ ((s.list a).closed = true →
          (t.list a).items = [] ∧ t.latched &&& reasonBatchApplied = reasonBatchApplied))
      ∧ (s.condition = .releasing → ∀ o, (s.output o).binding = some a → (t.output o).safeHold = false))
    ∧ (x.state = .halted → halt = .next (answer s (bare .done)))
    ∧ (x.state = .off ∨ x.state = .halting → halt = .next (answer s (bare .wrongState)))

/-- R41, R73, R76, R131: SET_POSITION makes the tracked position the value and references the axis. A LIVE WINDOW of the
axis that contains the new position fires with direction NONE where it is IDLE and not spent, and stays as it is
otherwise; one that does not contain it becomes IDLE, its log kept; one found inconsistent is fenced. Every other slot,
the other axes and attention stay as they are. (Stated where the channel of the axis has no work in progress; work in
progress is ended first, PiecesOfWorkComeOneAtATime.) (Stated where the block works at the acceptance; the other pace is
an operand: log entry 13.) -/
def Obligations.SetPositionJumps : Prop :=
  ∀ (s : State) (tag : Byte) (a : AxisId) (v : Nat), s.ReadyAlone tag → v < 65536 →
    let x := s.axis a
    let set := exec (.setPosition ⟨frameRest 0x13#8 tag ([byteOf a] ++ bytesOf 2 v), .prompt⟩) s
    (x.state = .halted ∨ x.state = .running → s.busy a = false → v < x.modulus → ∃ t, set = .next t
      ∧ t.axis a = { x with
          position := (((v : Int) - x.backlog) % (x.modulus : Int)).toNat, referenced := true, corrections := 0 }
      ∧ (∀ b, b ≠ a → t.axis b = s.axis b)
      ∧ t.port = (s.answers 0x13#8 tag (bare .done)).port
      ∧ t.latched = s.latched
      ∧ s.WindowsJumped t a
      ∧ (∀ h < Config.slotCount, (s.slot h).liveWith (fun e => e.axis == a && e.isWindow) = false →
          t.slot h = s.slot h))
    ∧ (x.state = .halted ∨ x.state = .running → x.modulus ≤ v →
      set = .next (s.answers 0x13#8 tag (bare .badValue)))
    ∧ (x.state = .off ∨ x.state = .halting ∨ x.state = .faulted →
      set = .next (s.answers 0x13#8 tag (bare .wrongState)))

/-- R37, R42, R43: RUN_AXIS makes a HALTED axis RUNNING, leaves a RUNNING one, and is refused in the other states.
MOVE_AXIS adds its count to the backlog of a RUNNING STEPPED axis or is refused with BACKLOG_FULL, and SET_RATE writes
the rate of a RATE axis that is HALTED, RUNNING or FAULTED; elsewhere both are refused. A count of 0 or beyond ±1,023, a
rate beyond ±500,000 and an axis number above 3 are refused with BAD_VALUE. (Stated where the block works at the
acceptance; the other pace is an operand: log entry 13.) -/
def Obligations.RunMoveAndRateRequests : Prop :=
  ∀ (s : State) (tag : Byte) (a : AxisId) (b : Byte) (n r : Int), s.ReadyAlone tag →
    let x := s.axis a
    let run := exec (.runAxis ⟨frameRest 0x11#8 tag [byteOf a], .prompt⟩) s
    let move := exec (.moveAxis ⟨frameRest 0x14#8 tag ([byteOf a] ++ signedBytesOf 2 n), .prompt⟩) s
    let rate := exec (.setRate ⟨frameRest 0x15#8 tag ([byteOf a] ++ signedBytesOf 4 r), .prompt⟩) s
    (x.state = .halted → run = .next ((s.setAxis a { x with state := .running }).answers 0x11#8 tag (bare .done)))
    ∧ (x.state = .running → run = .next (s.answers 0x11#8 tag (bare .done)))
    ∧ (x.state = .off ∨ x.state = .halting ∨ x.state = .faulted → run = .next (s.answers 0x11#8 tag (bare .wrongState)))
    ∧ (4 ≤ b.toNat →
      exec (.runAxis ⟨frameRest 0x11#8 tag [b], .prompt⟩) s = .next (s.answers 0x11#8 tag (bare .badValue))
      ∧ exec (.moveAxis ⟨frameRest 0x14#8 tag ([b] ++ signedBytesOf 2 n), .prompt⟩) s
        = .next (s.answers 0x14#8 tag (bare .badValue))
      ∧ exec (.setRate ⟨frameRest 0x15#8 tag ([b] ++ signedBytesOf 4 r), .prompt⟩) s
        = .next (s.answers 0x15#8 tag (bare .badValue)))
    ∧ (n ≠ 0 → n.natAbs ≤ 1023 →
      (x.source = .stepped → x.state = .running → (x.backlog + n).natAbs ≤ 1023 →
        move = .next ((s.setAxis a { x with backlog := x.backlog + n }).answers 0x14#8 tag (bare .done)))
      ∧ (x.source = .stepped → x.state = .running → 1023 < (x.backlog + n).natAbs →
        move = .next (s.answers 0x14#8 tag (bare .backlogFull)))
      ∧ (x.source ≠ .stepped ∨ x.state ≠ .running →
        move = .next (s.answers 0x14#8 tag (bare .wrongState))))
    ∧ (n = 0 ∨ 1023 < n.natAbs → -32768 ≤ n → n ≤ 32767 → move = .next (s.answers 0x14#8 tag (bare .badValue)))
    ∧ (r.natAbs ≤ 500000 →
      (x.source = .rate → x.state = .halted ∨ x.state = .running ∨ x.state = .faulted →
        rate = .next ((s.setAxis a { x with rate := r }).answers 0x15#8 tag (bare .done)))
      ∧ (x.source ≠ .rate ∨ x.state = .off ∨ x.state = .halting →
        rate = .next (s.answers 0x15#8 tag (bare .wrongState))))
    ∧ (500000 < r.natAbs → -2147483648 ≤ r → r ≤ 2147483647 → rate = .next (s.answers 0x15#8 tag (bare .badValue)))

/-! ### Lines and counts -/

/-- R45, R46: on a RUNNING ENCODER axis a change of the pair one place along 00, 10, 11, 01 adds +1, one place back adds
−1, and direction invert swaps them; a change shown for fewer than filter + 1 samples is not recognized. (That nothing
changes where the event does not occur is the model's choice: log entry 2.) -/
def Obligations.EncoderChangesAreCounted : Prop :=
  ∀ (s : State) (x : AxisId) (i : Fin 4) (forward : Bool) (samples : Nat) (order : FaultOrder),
    let r := s.axis x
    let pair := forwardPair (if forward then i + 1 else i - 1)
    let d : Int := if forward == r.invert then -1 else 1
    s.applying x = false → r.state = .running → r.source = .encoder → (r.lines.a, r.lines.b) = forwardPair i →
    (r.filter.toNat + 1 ≤ samples → (r.backlog + d).natAbs ≤ 1023 →
      exec (.encoderCount x pair.1 pair.2 samples order) s =
        .next (s.setAxis x { r with lines := ⟨pair.1, pair.2, r.lines.z⟩, backlog := r.backlog + d }))
    ∧ (samples ≤ r.filter.toNat → exec (.encoderCount x pair.1 pair.2 samples order) s = .next s)

/-- R47, R50, R55: a change of both lines faults a RUNNING ENCODER axis with ILLEGAL_TRANSITION, and a count that would
bring the backlog to 1024 faults it with COUNT_OVERRUN; the fault leaves the part as R55 says, whatever the order of its
claims, once the channel has ended what the fault asks of it. (The order of the claims is an operand, log entry 4, and
so is where the channel's work stops, log entry 13. Stated where the channel of the axis has no work in progress
before.) -/
def Obligations.EncoderFaultsTakeTheAxisOut : Prop :=
  ∀ (s : State) (x : AxisId) (samples : Nat) (order : FaultOrder),
    let r := s.axis x
    s.busy x = false → r.state = .running → r.source = .encoder → r.filter.toNat + 1 ≤ samples →
    (∃ t, exec (.encoderCount x (!r.lines.a) (!r.lines.b) samples order) s = .next t
      ∧ FaultTaken (s.setAxis x { r with lines := ⟨!r.lines.a, !r.lines.b, r.lines.z⟩ }) (t.finish x) x .illegalTransition
        order.silentLater)
    ∧ ∀ (i : Fin 4) (forward : Bool),
      let pair := forwardPair (if forward then i + 1 else i - 1)
      let d : Int := if forward == r.invert then -1 else 1
      (r.lines.a, r.lines.b) = forwardPair i → 1024 ≤ (r.backlog + d).natAbs →
      ∃ t, exec (.encoderCount x pair.1 pair.2 samples order) s = .next t
        ∧ FaultTaken (s.setAxis x { r with lines := ⟨pair.1, pair.2, r.lines.z⟩ }) (t.finish x) x .countOverrun
          order.silentLater

/-- R52, R53, R54, R73: an index event references an UNREFERENCED axis by a jump, which settles its windows as
SET_POSITION does, and on a REFERENCED one the deviation d makes no change, a correction of −d, a COUNT_OVERRUN where
the correction would bring the backlog to 1024, or an INDEX_MISMATCH; a rising edge elsewhere sets the level of Z alone.
(The order of the claims is an operand, log entry 4, and so is where the channel's work stops, log entry 13. That a rise
recognized on a RUNNING axis is an index event whenever the line itself rose is the model's choice: log entry 16.) -/
def Obligations.IndexEventsReferenceAndCheck : Prop :=
  ∀ (s : State) (a : AxisId) (samples : Nat) (order : FaultOrder),
    let x := s.axis a
    let risen := { x with lines := { x.lines with z := true } }
    let index := exec (.indexEvent a samples order) s
    s.busy a = false → x.lines.z = false → x.filter.toNat + 1 ≤ samples → x.state ≠ .off →
    (x.state ≠ .running ∨ x.source ≠ .encoder ∨ x.indexPoint = none → index = .next (s.setAxis a risen))
    ∧ ∀ p, x.state = .running → x.source = .encoder → x.indexPoint = some p →
      (x.referenced = false → ∃ t, index = .next t
        ∧ t.axis a = { risen with
            position := (((p : Int) - x.backlog) % (x.modulus : Int)).toNat, referenced := true, corrections := 0 }
        ∧ t.latched = s.latched ||| reasonAxisChanged
        ∧ s.WindowsJumped (t.finish a) a
        ∧ (∀ h < Config.slotCount, (s.slot h).liveWith (fun e => e.axis == a && e.isWindow) = false →
          t.slot h = s.slot h))
      ∧ ∀ d : Int, x.referenced = true → 0 < x.modulus → -(x.modulus : Int) < 2 * d → 2 * d ≤ x.modulus →
        ((x.tracked : Int) - p - d) % (x.modulus : Int) = 0 →
        (d = 0 → index = .next (s.setAxis a risen))
        ∧ (d ≠ 0 → d.natAbs ≤ x.tolerance.toNat → (x.backlog - d).natAbs ≤ 1023 →
          index = .next (s.setAxis a { risen with
            backlog := x.backlog - d, corrections := min 255 (x.corrections + 1) }))
        ∧ (d ≠ 0 → d.natAbs ≤ x.tolerance.toNat → 1023 < (x.backlog - d).natAbs → ∃ t, index = .next t
          ∧ FaultTaken (s.setAxis a risen) (t.finish a) a .countOverrun order.silentLater)
        ∧ (x.tolerance.toNat < d.natAbs → ∃ t, index = .next t
          ∧ FaultTaken (s.setAxis a risen) (t.finish a) a (.indexMismatch d) order.silentLater)

/-- R49, R50: at the end of a rate interval each RUNNING RATE axis adds the whole counts of remainder plus rate,
truncated toward zero, and keeps the rest; where none of them overruns, nothing else changes, whatever the order of the
axes. Where the one RUNNING RATE axis overruns, it takes the counts up to 1023 and then faults with COUNT_OVERRUN.
(Stated where no channel has stopped within an application: log entry 13.) -/
def Obligations.RateIntervalAddsWholeCounts : Prop :=
  ∀ (s : State) (turns : List (AxisId × FaultOrder)), (∀ a, s.applying a = false) →
    ((∀ a, (s.axis a).state = .running → (s.axis a).source = .rate → (s.axis a).backlog.natAbs ≤ 1023
        ∧ ((s.axis a).backlog + ((s.axis a).remainder + (s.axis a).rate).tdiv 10000).natAbs ≤ 1023) →
      exec (.rateInterval turns) s = .next { s with
        axes := s.axes.map (fun x =>
          if x.state = .running ∧ x.source = .rate then { x with
            backlog := x.backlog + (x.remainder + x.rate).tdiv 10000
            remainder := (x.remainder + x.rate).tmod 10000 }
          else x) })
    ∧ ∀ a, (∀ b, (s.axis b).state = .running ∧ (s.axis b).source = .rate ↔ b = a) →
      let x := s.axis a
      let n := (x.remainder + x.rate).tdiv 10000
      s.busy a = false → x.backlog.natAbs ≤ 1023 → 1023 < (x.backlog + n).natAbs →
      ∃ t, exec (.rateInterval turns) s = .next t
        ∧ FaultTaken (s.setAxis a { x with
            backlog := if 0 < n then 1023 else -1023, remainder := (x.remainder + x.rate).tmod 10000 }) (t.finish a)
          a .countOverrun
          (((turns.find? (fun turn => turn.1 == a)).map (fun turn => turn.2.silentLater)).getD false)

/-- R47, R48, R52: on a configured axis that does not count its lines, a recognized change sets the recognized levels
alone, and so does a change of Z that is no index event on one that does; a change of both A and B faults a RUNNING
ENCODER axis. (The order of the claims is an operand: log entry 4.) -/
def Obligations.PlainLineChangesSetTheLevels : Prop :=
  ∀ (s : State) (a : AxisId) (l : Lines) (samples : Nat) (order : FaultOrder),
    let x := s.axis a
    s.applying a = false → x.state ≠ .off → x.filter.toNat + 1 ≤ samples →
    (x.state ≠ .running ∨ x.source ≠ .encoder
      ∨ (l.a = x.lines.a ∧ l.b = x.lines.b ∧ (l.z = false ∨ x.indexPoint = none)) →
      exec (.recognizedLineChange a l samples order) s = .next (s.setAxis a { x with lines := l }))
    ∧ (s.busy a = false → x.state = .running → x.source = .encoder → l.a = !x.lines.a → l.b = !x.lines.b →
      l.z = false ∨ x.indexPoint = none → ∃ t, exec (.recognizedLineChange a l samples order) s = .next t
      ∧ FaultTaken (s.setAxis a { x with lines := l }) (t.finish a) a .illegalTransition order.silentLater)

/-! ### Steps -/

/-- R51, R58, R59, R60, R62: a step of a RUNNING axis, or of a HALTING one with more than one count left, moves the
position one count in the backlog's direction, modulo the modulus, and the backlog one toward 0; the revolution count
moves on a wrap alone; no other field of any axis record changes, and the tracked position stands. (A step that stops on
its way is resumed: StoppedWorkIsResumed.) -/
def Obligations.StepMovesTheAxis : Prop :=
  ∀ (s : State) (a : AxisId),
    let x := s.axis a
    let m : Int := x.modulus
    let d : Int := if 0 < x.backlog then 1 else -1
    s.busy a = false → x.Steps →
    ∃ t, exec (.step ⟨a, []⟩) s = .next t
      ∧ t.axis a = { x with
          position := (((x.position : Int) + d) % m).toNat
          backlog := x.backlog - d
          revolution :=
            if d = 1 ∧ x.position + 1 = x.modulus then x.revolution + 1#16
            else if d = -1 ∧ x.position = 0 then x.revolution - 1#16 else x.revolution }
      ∧ (t.axis a).tracked = x.tracked
      ∧ ∀ b, b ≠ a → t.axis b = s.axis b

/-- R60, R61, R74, R84, R120 to R124, R151: a wrap step of a RUNNING axis, or of a HALTING one with more than one count
left or no ENCODER axis (the last count of an ENCODER axis: LastCountReachesHalted), clears spent and applies a closed
list, setting BATCH_APPLIED: its PLACE, ALTER and RETIRE items do to the slots they name what their kinds ask for, and a
SET_LEAD ends the activity of the entries of its output and writes the lead; an entry found inconsistent is fenced
instead, and a WINDOW so applied that has no boundary at the wrap point and contains the new position fires with
direction NONE in the new revolution (one with a boundary there: CrossedEntriesFire, WindowsAreEnteredAndLeft). No
handing of an earlier entry waits for a slot whose PLACE item is applied (that such a handing is discarded before the
entry becomes LIVE or FENCED is the model's choice: log entry 13). No LIVE entry of the axis is spent afterwards but by
a fire of this step. In RELEASING no output of the axis keeps its safe hold. (That an entry fenced while STAGED has a
fresh log is DEDUCED: log entry 9.) -/
def Obligations.WrapStepsApplyAndRelease : Prop :=
  ∀ (s : State) (a : AxisId),
    let x := s.axis a
    s.busy a = false → x.Steps ∨ x.StepsLast → x.Wraps →
    ∃ t, exec (.step ⟨a, []⟩) s = .next t
      ∧ ((s.list a).closed = true → (t.list a).items = [] ∧ (t.list a).closed = false
          ∧ t.latched &&& reasonBatchApplied = reasonBatchApplied)
      ∧ (s.condition = .releasing → ∀ o, (s.output o).binding = some a → (t.output o).safeHold = false)
      ∧ (∀ h < Config.slotCount, ∀ e ok r, t.slot h = .live e ok r → e.axis = a → r.spent = true →
          e.oncePerRev = true ∧ x.referenced = true ∧ ∃ dir, r.log.lastFire = some ⟨x.stepRevolution, dir⟩)
      ∧ (∀ h < Config.slotCount, s.WrapSpares a h →
          (∀ e ok r, s.slot h = .live e ok r → e.axis = a →
            x.referenced = false ∨ (t.effOn e ≠ 0 ∧ t.effOff e ≠ some 0) →
            t.slot h = .live e ok { r with spent := false })
          ∧ ((s.slot h).liveWith (fun e => e.axis == a) = false → t.slot h = s.slot h))
      ∧ ((s.list a).closed = true → ((s.list a).items.filterMap Item.handle?).Nodup →
          let applied (h : Nat) (e : Entry) (log : FireLog) : Prop :=
            x.referenced = false ∨ (t.effOn e ≠ 0 ∧ t.effOff e ≠ some 0) →
            t.slot h = .live e true
              (if x.referenced = true ∧ e.off?.any (t.inWindow e) = true then
                fireLeaves ⟨.idle, false, log⟩ e x.stepRevolution .none (.active none) true
              else ⟨.idle, false, log⟩)
          (∀ h < Config.slotCount, ∀ e r, e.axis = a →
            (.place h ∈ (s.list a).items → s.slot h = .staged e true → applied h e FireLog.fresh)
            ∧ (.place h ∈ (s.list a).items → s.slot h = .staged e false → t.slot h = .fenced e false FireLog.fresh)
            ∧ (∀ ok b rest, .place h ∈ (s.list a).items → s.slot h = .staged e ok →
              (s.channel b).rest = .hand h :: rest → .hand h ∉ rest → .hand h ∉ (t.channel b).rest)
            ∧ (∀ v, .alter h v ∈ (s.list a).items → s.slot h = .live e true r → applied h (v.writeTo e) r.log)
            ∧ (.retire h ∈ (s.list a).items → s.slot h = .live e true r →
              t.slot h = if r.log.notifyPending then .unread e true r.log else .free)
            ∧ (s.slot h = .live e false r → (∃ i ∈ (s.list a).items, i.names h = true ∧ i ≠ .place h) →
              t.slot h = .fenced e false r.log)
            ∧ (∀ o lead, .setLead o lead ∈ (s.list a).items → e.output = some o →
              (∀ i ∈ (s.list a).items, i.names h = false) →
              (s.slot h = .live e true r → applied h e r.log)
              ∧ (s.slot h = .live e false r → t.slot h = if x.referenced = true then .fenced e false r.log
                else .live e false ⟨.idle, false, r.log⟩)))
          ∧ (((s.list a).items.filterMap Item.leadOf?).Nodup →
            ∀ o lead, .setLead o lead ∈ (s.list a).items → (t.output o).lead = lead))

/-- R38, R60, R63 to R66, R72, R84, R89: on a step of a REFERENCED axis, RUNNING or HALTING, the last count of a RATE or
STEPPED axis among them where the halt leaves the entry alone (State.StepKeeps), a consistent PULSE, TOGGLE or MARK at
the step point fires when its qualifier admits the step and it is not spent: pass count, last fire, spent, notification,
for a PULSE a running timer, and for a TOGGLE the latch of its output, inverted once however many of them fire.
Otherwise it stays; an inconsistent one is fenced. On a wrap this is judged with the entries, the leads and the
revolution count that the wrap part leaves (State.InForce). -/
def Obligations.CrossedEntriesFire : Prop :=
  ∀ (s : State) (a : AxisId) (h : Nat) (e : Entry) (ok : Bool) (r : Run),
    let x := s.axis a
    s.busy a = false → s.StepKeeps a h → x.referenced = true → h < Config.slotCount → s.InForce a h e ok r → e.axis = a →
    e.kind ≠ .window →
    let admitted := e.qualifier? = some .either
      ∨ (e.qualifier? = some .forward ∧ 0 < x.backlog) ∨ (e.qualifier? = some .reverse ∧ x.backlog < 0)
    let activity : Activity := match e.action with
      | .pulse _ d _ => .active (some d)
      | _ => .idle
    ∃ t, exec (.step ⟨a, []⟩) s = .next t
      ∧ (t.effOn e = x.stepPoint →
        (ok = false → t.slot h = .fenced e false r.log)
        ∧ (ok = true → ¬ (admitted ∧ r.spent = false) → t.slot h = .live e true r)
        ∧ (ok = true → admitted → r.spent = false →
          t.slot h = .live e true (fireLeaves r e x.stepRevolution x.stepDir activity true)
          ∧ (∀ o q, e.action = .toggle o q → (t.output o).latch = !(s.output o).latch)))

/-- R38, R60, R68, R69, R70, R74, R84: on a step of a REFERENCED axis, RUNNING or HALTING, the last count of a RATE or
STEPPED axis among them where the halt leaves the entry alone (State.StepKeeps), a consistent WINDOW with a boundary at
the step point is entered, firing when it is IDLE and not spent, or left, becoming IDLE without a fire; an inconsistent
one is fenced. On a wrap this is judged with the entries, the leads and the revolution count that the wrap part leaves
(State.InForce), and the settle of the applied entries fires none of them again. -/
def Obligations.WindowsAreEnteredAndLeft : Prop :=
  ∀ (s : State) (a : AxisId) (h : Nat) (e : Entry) (ok : Bool) (r : Run) (o : OutId) (off : Nat),
    let x := s.axis a
    s.busy a = false → s.StepKeeps a h → x.referenced = true → h < Config.slotCount → s.InForce a h e ok r → e.axis = a →
    e.action = .window o off →
    ∃ t, exec (.step ⟨a, []⟩) s = .next t
      ∧ (t.effOn e ≠ t.effective e off → t.effOn e = x.stepPoint ∨ t.effective e off = x.stepPoint →
        let entered := if 0 < x.backlog then t.effOn e = x.stepPoint else t.effective e off = x.stepPoint
        (ok = false → t.slot h = .fenced e false r.log)
        ∧ (ok = true → entered → r.activity = .idle → r.spent = false →
          t.slot h = .live e true (fireLeaves r e x.stepRevolution x.stepDir (.active none) true))
        ∧ (ok = true → entered → r.activity ≠ .idle ∨ r.spent = true → t.slot h = .live e true r)
        ∧ (ok = true → ¬ entered → t.slot h = .live e true { r with activity := .idle }))

/-- R58, R63, R65, R68: a step without a wrap of a RUNNING axis, or of a HALTING one with more than one count left,
changes no slot but those of LIVE entries of the axis with a point at the step point, inverts no latch but that of an
output with a TOGGLE entry there, leaves leads, modes and safe holds, and on an UNREFERENCED axis it changes the axis
record alone. -/
def Obligations.StepLeavesOtherEntriesAlone : Prop :=
  ∀ (s : State) (a : AxisId),
    let x := s.axis a
    s.busy a = false → x.Steps → ¬ x.Wraps →
    (∃ t, exec (.step ⟨a, []⟩) s = .next t ∧ t.condition = s.condition ∧ t.latched = s.latched ∧ t.port = s.port
      ∧ (∀ b, b ≠ a → t.list b = s.list b)
      ∧ (∀ h < Config.slotCount, (s.slot h).liveWith (fun e => e.axis == a
            && (s.effOn e == x.stepPoint || s.effOff e == some x.stepPoint)) = false →
          t.slot h = s.slot h)
      ∧ (∀ o, (t.output o).lead = (s.output o).lead ∧ (t.output o).mode = (s.output o).mode
          ∧ (t.output o).safeHold = (s.output o).safeHold)
      ∧ (∀ o, (∀ h < Config.slotCount, ∀ e ok r q, s.slot h = .live e ok r → e.axis = a → e.action = .toggle o q →
            s.effOn e ≠ x.stepPoint) → (t.output o).latch = (s.output o).latch))
    ∧ (x.referenced = false → exec (.step ⟨a, []⟩) s = .next (s.setAxis a { x with
        position := if 0 < x.backlog then x.position + 1 else x.position - 1
        backlog := if 0 < x.backlog then x.backlog - 1 else x.backlog + 1 }))

/-- R38, R39, R119, R125, R152: the step that takes the last count of a HALTING axis moves it by that count with full
evaluation (CrossedEntriesFire, WindowsAreEnteredAndLeft, WrapStepsApplyAndRelease) and makes it HALTED. An ENCODER axis
then loses its reference and its activity: where no list is applied at the halt it goes through just the step of a
STEPPED axis before. A closed list is applied: on a wrap within the step, else at the halt, where its items do to their
entries what their kinds ask for, and a WINDOW applied on a REFERENCED axis that contains the position fires with
direction NONE. The list is left empty and open with BATCH_APPLIED set, in RELEASING no output of the axis keeps its
safe hold, and a HALT_AXIS that waits for the axis has its outcome DONE. (That an entry fenced while STAGED has a fresh
log is DEDUCED: log entry 9.) -/
def Obligations.LastCountReachesHalted : Prop :=
  ∀ (s : State) (a : AxisId),
    let x := s.axis a
    let m : Int := x.modulus
    let step (u : State) := exec (.step ⟨a, []⟩) u
    let l := s.list a
    s.busy a = false → x.state = .halting → x.backlog = 1 ∨ x.backlog = -1 →
    ∃ t, step s = .next t
      ∧ (t.axis a).state = .halted ∧ (t.axis a).backlog = 0
      ∧ (x.position < x.modulus → t.axis a = { x with
          state := .halted, backlog := 0
          position := (((x.position : Int) + x.backlog) % m).toNat
          revolution := x.stepRevolution
          referenced := x.referenced && x.source != .encoder
          silentDue := x.silentDue && x.source != .encoder })
      ∧ (∀ b, b ≠ a → t.axis b = s.axis b)
      ∧ (x.source = .encoder → (t.axis a).referenced = false
          ∧ ∀ h < Config.slotCount, ∀ e ok r, t.slot h = .live e ok r → e.axis = a → r.activity = .idle)
      ∧ (x.source ≠ .encoder → (t.axis a).referenced = x.referenced)
      ∧ (x.source = .encoder → l.closed = false ∨ x.Wraps → ∃ u, step (s.setAxis a { x with source := .stepped }) = .next u
        ∧ t = (u.setAxis a { u.axis a with source := .encoder, referenced := false }).silenceAxis a)
      ∧ (t.list a).closed = false
      ∧ (l.closed = true → (t.list a).items = [] ∧ t.latched &&& reasonBatchApplied = reasonBatchApplied)
      ∧ (l.closed = true → ¬ x.Wraps → x.position < x.modulus → (l.items.filterMap Item.handle?).Nodup →
          let applied (h : Nat) (e : Entry) (log : FireLog) : Prop := t.slot h = .live e true
            (if (t.axis a).referenced = true ∧ e.off?.any (t.inWindow e) = true then
              fireLeaves ⟨.idle, false, log⟩ e x.revolution .none (.active none) true
            else ⟨.idle, false, log⟩)
          let still (e : Entry) : Prop := x.referenced = false ∨ (s.effOn e ≠ x.stepPoint ∧ s.effOff e ≠ some x.stepPoint)
          (∀ h < Config.slotCount, ∀ e r, e.axis = a →
            (.place h ∈ l.items → s.slot h = .staged e true → applied h e FireLog.fresh)
            ∧ (.place h ∈ l.items → s.slot h = .staged e false → t.slot h = .fenced e false FireLog.fresh)
            ∧ (∀ v, .alter h v ∈ l.items → s.slot h = .live e true r → still e → applied h (v.writeTo e) r.log)
            ∧ (.retire h ∈ l.items → s.slot h = .live e true r → still e →
              t.slot h = if r.log.notifyPending then .unread e true r.log else .free)
            ∧ (s.slot h = .live e false r → (∃ i ∈ l.items, i.names h = true ∧ i ≠ .place h) →
              t.slot h = .fenced e false r.log))
          ∧ ((l.items.filterMap Item.leadOf?).Nodup →
            ∀ o lead, .setLead o lead ∈ l.items → (t.output o).lead = lead))
      ∧ (s.condition = .releasing → ∀ o, (s.output o).binding = some a → (t.output o).safeHold = false)
      ∧ (∀ code tag, s.port.state = .executing ⟨code, tag, .halting a⟩ →
          t.port.state = .executing ⟨code, tag, .ready .done [] .nothing⟩)
      ∧ (∀ code tag, s.port.state = .draining ⟨code, tag, .halting a⟩ →
          t.port.state = .draining ⟨code, tag, .ready .done [] .nothing⟩)

/-- R78, R80, R81: a PULSE whose timer has run its duration becomes IDLE and leaves its output's pulse count, and no
timer expires in an earlier or a later microsecond; a silent end that waits makes every LIVE entry of its axis IDLE.
Neither is a fire. (That nothing changes where the event does not occur is the model's choice: log entry 2.) -/
def Obligations.ActivityEndsWithoutAFire : Prop :=
  ∀ (s : State),
    (∀ (h : Fin 512) (elapsed : Nat) (e : Entry) (ok : Bool) (r : Run) (o : OutId) (d d' : Nat) (q : Qualifier),
      s.slot h = .live e ok r → e.action = .pulse o d' q → r.activity = .active (some d) →
      (elapsed = d → exec (.pulseExpiry h elapsed) s = .next
        ((s.setSlot h (.live e ok { r with activity := .idle })).setOutput o
          { s.output o with pulseCount := (s.output o).pulseCount - 1 }))
      ∧ (elapsed ≠ d → exec (.pulseExpiry h elapsed) s = .next s))
    ∧ ∀ a, s.busy a = false → (s.axis a).silentDue = true → ∃ t, exec (.axisSilentEnd a) s = .next t
      ∧ t.axis a = { s.axis a with silentDue := false }
      ∧ (∀ b, b ≠ a → t.axis b = s.axis b)
      ∧ t.lists = s.lists ∧ t.latched = s.latched ∧ t.report = s.report
      ∧ s.SilentlyEnded t a

/-! ### The work of the channels -/

/-- R58, R77, R131, R160, R184: work that has stopped before one of its claims comes to where it would have come without
the stop. What a step leaves when it stops, resumed, is what the step leaves without a stop, and a step that does not
stop is the step without stop points. What a request leaves at any pace, where no channel has work in progress, goes on
of itself to what the request leaves without a stop. (Where the work stops is an operand: log entry 13.) -/
def Obligations.StoppedWorkIsResumed : Prop :=
  (∀ (s t : State) (a : AxisId) (stops : List StopPoint), exec (.step ⟨a, stops⟩) s = .next t →
    (t.busy a = true → exec (.step ⟨a, []⟩) t = exec (.step ⟨a, []⟩) s)
    ∧ (t.busy a = false → exec (.step ⟨a, []⟩) s = .next t))
  ∧ ∀ (s t u : State) (code tag : Byte) (args : List Byte) (l : Lines) (pace : Pace),
    s.Ready tag → (∀ a, s.busy a = false) → args.length ≤ 60 →
    exec (requestCommand code (frameRest code tag args) l pace) s = .next t →
    exec (requestCommand code (frameRest code tag args) l .prompt) s = .next u →
    ∃ n : Nat, State.background^[n] t = u

/-- R57, R62, R77, R120: a channel does one piece of work at a time. SET_POSITION, a HALT_AXIS of a RUNNING or FAULTED
axis, a CONFIG_AXIS of a HALTED one with its own modulus and an index event find the work in progress on the axis ended.
A request that reads or changes slots, lists or axis records finds every application in progress ended, and the other
requests leave every channel's work as it is. (That what is in progress is ended first is the model's reading of the one
claim: log entry 13.) -/
def Obligations.PiecesOfWorkComeOneAtATime : Prop :=
  ∀ (s : State) (tag : Byte) (a : AxisId),
    let x := s.axis a
    (∀ v, s.ReadyAlone tag → x.state = .halted ∨ x.state = .running → v < x.modulus → x.modulus ≤ 65536 →
      let set := Instr.setPosition ⟨frameRest 0x13#8 tag ([byteOf a] ++ bytesOf 2 v), .prompt⟩
      exec set s = exec set (s.finish a))
    ∧ (s.ReadyAlone tag → x.state = .running ∨ x.state = .faulted →
      let halt := Instr.haltAxis ⟨frameRest 0x12#8 tag [byteOf a], .prompt⟩
      exec halt s = exec halt (s.finish a))
    ∧ (∀ c l, s.ReadyAlone tag → x.state = .halted → AxisConfig.InRange c → c.modulus = x.modulus →
      let config := Instr.configAxis ⟨frameRest 0x10#8 tag (configAxisArgs a c), .prompt⟩ l
      exec config s = exec config (s.finish a))
    ∧ (∀ samples order, x.state = .running → x.source = .encoder → x.indexPoint.isSome = true → x.lines.z = false →
      x.filter.toNat + 1 ≤ samples →
      exec (.indexEvent a samples order) s = exec (.indexEvent a samples order) (s.finish a))
    ∧ (∀ code args l, s.Ready tag → argLength code = some args.length →
      let c := requestCommand code (frameRest code tag args) l .prompt
      let passes := code ∈ [0x01#8, 0x02#8, 0x03#8, 0x04#8, 0x21#8, 0x22#8, 0x23#8, 0x50#8, 0x51#8, 0x60#8, 0x61#8]
      (¬ passes → exec c s = exec c s.endAllApplying)
      ∧ (passes → ∃ t, exec c s = .next t ∧ t.channels = s.channels ∧ t.table = s.table ∧ t.lists = s.lists
        ∧ t.axes = s.axes))

/-- R72, R131, R132, R135, R160, R161: between which claims work can stop. The fence by a crossing, a boundary, a
settle, a jump or an application stops with its slot FENCED and its item dropped, the output and the fault report as
before; then with the output written, the report as before; then the report is written. The fence by a READ_ENTRY stops
there too, and the request has its outcome after the third claim. A fire of a PULSE, TOGGLE, MARK or WINDOW, by a step,
a settle or a jump, stops before its handing, the entry and its output written and the notify set as before; the handing
then acts on the state its slot is in: a LIVE or FENCED one joins the set, a member is missed once more, and in any
other slot it is discarded. (Where the work stops is an operand: log entry 13. That the latch of a TOGGLE is inverted
before the handing is the model's choice: log entry 18.) -/
def Obligations.WorkStopsBetweenClaims : Prop :=
  ∀ (s : State) (a : AxisId) (h : Nat) (e : Entry) (r : Run) (tag : Byte) (rest : List Task) (inverted : List OutId),
    let x := s.axis a
    let l := s.list a
    let left (t : State) (ts : List Task) : State := t.setChannel a ⟨ts, inverted⟩
    let report := Task.fenceReport h a x.position x.revolution
    let claims := (e.output.map (fun o => Task.fenceOutput h o e.kind (r.activity != .idle))).toList ++ [report]
    let stopsAll : List StopPoint := [.fenceOutput h, .fenceReport h]
    let fenced (t : State) : State := (t.setSlot h (.fenced e false r.log)).setList a (if l.items.any (Item.names h) then
      ⟨l.items.filter (fun i => !i.names h), l.closed, l.change + 1#8⟩ else l)
    let outputFenced (t : State) (o : OutId) (kind : Kind) (active : Bool) : State :=
      let y := t.output o
      t.setOutput o { y with
        faultHold := true
        held := if y.safeHold || y.faultHold then y.held else y.pin
        windowCount := if active = true ∧ kind = .window then y.windowCount - 1 else y.windowCount
        pulseCount := if active = true ∧ kind = .pulse then y.pulseCount - 1 else y.pulseCount }
    let reported (t : State) (position : Nat) (revolution : BitVec 16) : State := { t with report := some (match t.report with
      | none => ⟨.entryCheck h, a, position, revolution, 0⟩
      | some p => { p with further := if p.further < 255 then p.further + 1 else p.further }) }
    (s.slot h = .live e false r → e.axis = a → x.referenced = true → x.state ≠ .faulted →
      ∀ task dir point, task ∈ [Task.cross h dir, .boundary h point dir, .settle h, .jumpDrop h] →
      s.channel a = ⟨task :: rest, inverted⟩ →
      exec (.step ⟨a, stopsAll⟩) s = .next (left (fenced s) (claims ++ rest))
      ∧ (h < Config.slotCount → ∀ o, e.output = some o → 0 < (fenced s).fencedTargeting o))
    ∧ (s.slot h = .live e false r → e.axis = a → ∀ i more announced, l = ⟨i :: more, true, l.change⟩ →
      i.names h = true → s.channel a = ⟨.application announced :: rest, inverted⟩ →
      exec (.step ⟨a, stopsAll⟩) s = .next (left ((s.setSlot h (.fenced e false r.log)).setList a
        ⟨more, true, l.change + 1#8⟩) (claims ++ .application announced :: rest)))
    ∧ (∀ o kind active p rev, let report := Task.fenceReport h a p rev
      s.channel a = ⟨.fenceOutput h o kind active :: report :: rest, inverted⟩ →
      exec (.step ⟨a, [.fenceReport h]⟩) s = .next (left (outputFenced s o kind active) (report :: rest)))
    ∧ (∀ p rev, s.channel a = ⟨[.fenceReport h a p rev], inverted⟩ →
      exec (.step ⟨a, []⟩) s = .next (reported (left s []) p rev))
    ∧ (s.slot h = .live e false r → e.axis = a → h < 512 → s.ReadyAlone tag → ∃ payload,
      let next := Next.reply .done (4#8 :: payload)
      let read := exec (.readEntry ⟨frameRest 0x38#8 tag (bytesOf 2 h), ⟨false, stopsAll, []⟩⟩) s
      let t := (fenced s).answers 0x38#8 tag (.claiming claims next stopsAll)
      read = .next t
      ∧ ∀ u : State, u.port = t.port →
        (∀ o, e.output = some o → exec .requestCompletion u = .next { outputFenced u o e.kind (r.activity != .idle) with
          port := ((fenced s).answers 0x38#8 tag (.claiming [report] next stopsAll)).port })
        ∧ (e.output = none → exec .requestCompletion u = .next { reported u x.position x.revolution with
          port := ⟨.idle, some ⟨tag, .done, 4#8 :: payload⟩, some tag, ⟨false, false, false⟩⟩
          latched := u.latched ||| reasonRequestDone })
        ∧ (∀ v : State, v.port = ((fenced s).answers 0x38#8 tag (.claiming [report] next stopsAll)).port →
          exec .requestCompletion v = .next { reported v x.position x.revolution with
            port := ⟨.idle, some ⟨tag, .done, 4#8 :: payload⟩, some tag, ⟨false, false, false⟩⟩
            latched := v.latched ||| reasonRequestDone }))
    ∧ (s.slot h = .live e true r → e.axis = a → x.referenced = true → x.state ≠ .faulted → r.spent = false →
      e.notify = true → ∀ task dir activity point,
      let admitted := e.qualifier? = some .either ∨ (e.qualifier? = some .forward ∧ dir = .forward)
        ∨ (e.qualifier? = some .reverse ∧ dir = .reverse)
      (task = .cross h dir ∧ admitted ∧ activity = match e.action with
          | .pulse _ d _ => .active (some d)
          | _ => .idle)
        ∨ (e.kind = .window ∧ r.activity = .idle ∧ activity = .active none
          ∧ ((task = .boundary h point dir ∧ (s.effOn e = point ↔ dir = .forward))
            ∨ ((task = .settle h ∨ task = .jumpSettle h) ∧ dir = .none ∧ e.off?.any (s.inWindow e) = true))) →
      s.channel a = ⟨task :: rest, inverted⟩ → ∃ t, exec (.step ⟨a, [.handing h]⟩) s = .next t
      ∧ t = { s with table := t.table, outputs := t.outputs, channels := t.channels }
      ∧ t.slot h = .live e true (fireLeaves r e x.revolution dir activity false) ∧ (∀ k, k ≠ h → t.slot k = s.slot k)
      ∧ (t.channel a).rest = .hand h :: rest ∧ (∀ b, b ≠ a → t.channel b = s.channel b)
      ∧ (∀ o, e.output ≠ some o → t.output o = s.output o)
      ∧ ∀ o, e.output = some o → t.output o = { s.output o with
          windowCount := if e.kind = .window then (s.output o).windowCount + 1 else (s.output o).windowCount
          pulseCount := if e.kind = .pulse ∧ r.activity = .idle then (s.output o).pulseCount + 1
            else (s.output o).pulseCount
          latch := if e.kind = .toggle ∧ o ∉ inverted then !(s.output o).latch else (s.output o).latch })
    ∧ (s.channel a = ⟨[.hand h], inverted⟩ → ∃ t, exec (.step ⟨a, []⟩) s = .next t
      ∧ t = { left s [] with table := t.table }
      ∧ (∀ k, k ≠ h → t.slot k = s.slot k)
      ∧ t.slot h =
        let missed (l : FireLog) : FireLog := { l with missed := if l.missed < 255 then l.missed + 1 else l.missed }
        let handed (l : FireLog) : FireLog := if l.notifyPending then missed l else { l with notifyPending := true }
        match s.slot h with
        | .live e ok r => .live e ok { r with log := handed r.log }
        | .fenced e ok l => .fenced e ok (handed l)
        | .unread e ok l => .unread e ok (missed l)
        | v => v)

/-! ### Outputs -/

/-- R91: the pin level of an output is composed from its record as the first matching line of the table; while RST is
asserted every pin is LOW (R103). -/
def Obligations.PinLevelIsComposed : Prop :=
  ∀ (s : State) (o : OutId),
    let x := s.output o
    let hold := x.safeHold = true ∨ x.faultHold = true
    let computed : Bool := match x.drive with
      | .level => 0 < x.windowCount + x.pulseCount
      | .toggle => x.latch
    let mapped (active : Bool) : Bool := match x.polarity with
      | .activeHigh => active
      | .activeLow => !active
    (s.phase = .held → s.pinLevel o = false)
    ∧ (s.phase ≠ .held →
      (hold ∨ x.mode = .isolated → x.safeLevel = .low → s.pinLevel o = false)
      ∧ (hold ∨ x.mode = .isolated → x.safeLevel = .high → s.pinLevel o = true)
      ∧ (hold ∨ x.mode = .isolated → x.safeLevel = .hold → s.pinLevel o = x.held)
      ∧ (¬ hold → x.mode = .forceActive → s.pinLevel o = mapped true)
      ∧ (¬ hold → x.mode = .forcePassive → s.pinLevel o = mapped false)
      ∧ (¬ hold → x.mode = .follow → s.pinLevel o = mapped computed))

/-- R97, R99, R153: CONFIG_OUTPUT writes its five fields and loads the latch of a TOGGLE output; a binding to an OFF
axis, a change under dependents and a lead that does not fit are refused in that order, and change nothing. In RELEASING
a change of binding to one that waits for no axis clears the safe hold. A change of binding or drive type finds both
counts 0 and no claim of a fence left for the record: one that a channel had left waiting has been taken before (that it
is taken then is the model's choice: log entry 13). (Stated where the block works at the acceptance; the other pace is
an operand: log entry 13.) -/
def Obligations.ConfigOutputWritesTheRecord : Prop :=
  ∀ (s : State) (tag : Byte) (c : OutputConfig), s.ReadyAlone tag →
    let x := s.output c.output
    let config := exec (.configOutput ⟨frameRest 0x20#8 tag (configOutputArgs c), .prompt⟩) s
    let answer (t : State) (status : Status) : State := t.answers 0x20#8 tag (bare status)
    let toOff := ∃ a, c.binding = some a ∧ (s.axis a).state = .off
    let blocked := ((x.binding ≠ c.binding ∨ x.drive ≠ c.drive) ∧ 0 < s.targeting c.output)
      ∨ (x.binding ≠ c.binding ∧ s.leadWaits c.output = true)
    let unfit := ∃ a, c.binding = some a ∧ (s.axis a).modulus ≤ x.lead.natAbs
    let changes := x.binding ≠ c.binding ∨ x.drive ≠ c.drive
    let written (y : Output) : Output := { y with
      binding := c.binding, drive := c.drive, polarity := c.polarity, safeLevel := c.safeLevel
      toggleInitial := c.toggleInitial
      latch := if c.drive = .toggle then c.toggleInitial else y.latch }
    let clear (t : State) := ∀ a, ∀ k ∈ (t.channel a).rest, k.fences c.output = false
    (toOff → config = .next (answer s .wrongState))
    ∧ (¬ toOff → blocked → config = .next (answer s .hasDependents))
    ∧ (¬ toOff → ¬ blocked → unfit → config = .next (answer s .badValue))
    ∧ (¬ toOff → ¬ blocked → ¬ unfit → s.condition ≠ .releasing ∨ x.binding = c.binding → clear s ∨ ¬ changes →
      config = .next (answer (s.setOutput c.output (written x)) .done))
    ∧ (¬ toOff → ¬ blocked → ¬ unfit → s.condition = .releasing → x.binding ≠ c.binding → clear s → ∃ t, config = .next t
      ∧ t.port = (answer s .done).port
      ∧ t.output c.output = { written x with safeHold := x.safeHold && s.waits c.binding }
      ∧ ∀ o, o ≠ c.output → t.output o = s.output o)
    ∧ (¬ toOff → ¬ blocked → ¬ unfit → changes → s.CountsOk → ∃ t, config = .next t ∧ clear t
      ∧ t.port = (answer s .done).port
      ∧ (t.output c.output).binding = c.binding ∧ (t.output c.output).drive = c.drive
      ∧ (t.output c.output).windowCount = 0 ∧ (t.output c.output).pulseCount = 0)
    ∧ (¬ toOff → ¬ blocked → ¬ unfit → changes → s.condition ≠ .releasing →
      ∀ a h kind active rest inverted, s.channel a = ⟨.fenceOutput h c.output kind active :: rest, inverted⟩ →
      clear (s.setChannel a ⟨rest, inverted⟩) →
      config = .next (answer ((s.setChannel a ⟨rest, inverted⟩).setOutput c.output (written { x with
        faultHold := true
        held := if x.safeHold || x.faultHold then x.held else x.pin
        windowCount := if active = true ∧ kind = .window then x.windowCount - 1 else x.windowCount
        pulseCount := if active = true ∧ kind = .pulse then x.pulseCount - 1 else x.pulseCount })) .done))

/-- R100, R101: SET_OUTPUT_MODE writes the mode, a change to ISOLATED under no hold capturing the pin level first;
CLEAR_OUTPUT_FAULT clears the fault hold unless a FENCED entry targets the output; an output above 31 is refused with
BAD_VALUE by both, and so is a mode above 3. (Stated where the block works at the acceptance; the other pace is an
operand: log entry 13.) -/
def Obligations.ModeAndFaultHoldRequests : Prop :=
  ∀ (s : State) (tag : Byte) (o : OutId) (m : Mode) (b c : Byte), s.Ready tag → 32 ≤ b.toNat → 4 ≤ c.toNat →
    let x := s.output o
    let noHold := x.safeHold = false ∧ x.faultHold = false
    exec (.setOutputMode ⟨frameRest 0x21#8 tag [byteOf o, m.code], .prompt⟩) s =
        .next ((s.setOutput o { x with
          mode := m
          held := if m = .isolated ∧ x.mode ≠ .isolated ∧ noHold then x.pin else x.held }).answers 0x21#8 tag
            (bare .done))
    ∧ exec (.setOutputMode ⟨frameRest 0x21#8 tag [b, m.code], .prompt⟩) s = .next (s.answers 0x21#8 tag (bare .badValue))
    ∧ exec (.setOutputMode ⟨frameRest 0x21#8 tag [byteOf o, c], .prompt⟩) s = .next (s.answers 0x21#8 tag (bare .badValue))
    ∧ (0 < s.fencedTargeting o →
      exec (.clearOutputFault ⟨frameRest 0x22#8 tag [byteOf o], .prompt⟩) s =
        .next (s.answers 0x22#8 tag (bare .hasDependents)))
    ∧ (s.fencedTargeting o = 0 →
      exec (.clearOutputFault ⟨frameRest 0x22#8 tag [byteOf o], .prompt⟩) s =
        .next ((s.setOutput o { x with faultHold := false }).answers 0x22#8 tag (bare .done)))
    ∧ exec (.clearOutputFault ⟨frameRest 0x22#8 tag [b], .prompt⟩) s = .next (s.answers 0x22#8 tag (bare .badValue))

/-! ### Edits -/

/-- R4, R107, R108, R115, R117, R131, R132: a PLACE that passes its checks stages the entry in the lowest FREE slot and
adds a PLACE item at the end of the list, closing it when asked, and answers with the handle; on an OFF axis, under a
closed list, for an output or points that do not fit, a window that would span the wrap, a full list, and with no slot
FREE it is refused in that order and changes nothing. Where it closes the list of a HALTED or FAULTED axis, it does what
a CLOSE_LIST of the list with the new item does, and answers with the handle; shown in full where the list was empty:
the entry is applied and settled within the request, and a handing for its slot that a channel has stopped before is
discarded. (That it is discarded before the entry becomes LIVE is the model's choice: log entry 13.) (Stated where the
block works at the acceptance; the other pace is an operand: log entry 13.) -/
def Obligations.PlaceReservesTheLowestFreeSlot : Prop :=
  ∀ (s : State) (tag : Byte) (e : Entry) (close : Bool), s.ReadyAlone tag → e.InRange →
    let x := s.axis e.axis
    let l := s.list e.axis
    let place := exec (.place ⟨frameRest 0x30#8 tag (placeArgs e close), .prompt⟩) s
    let answer (t : State) (w : Work) : State := t.answers 0x30#8 tag w
    let passes := s.outputFits e = true ∧ e.pointsFit x.modulus = true ∧ s.wouldSpan e = false
      ∧ l.items.length < 32
    (x.state = .off → place = .next (answer s (bare .wrongState)))
    ∧ (x.state ≠ .off → l.closed = true → place = .next (answer s (bare .listSealed)))
    ∧ (x.state ≠ .off → l.closed = false → s.outputFits e = false → place = .next (answer s (bare .mismatch)))
    ∧ (x.state ≠ .off → l.closed = false → s.outputFits e = true → e.pointsFit x.modulus = false →
      place = .next (answer s (bare .badValue)))
    ∧ (x.state ≠ .off → l.closed = false → s.outputFits e = true → e.pointsFit x.modulus = true →
      s.wouldSpan e = true → place = .next (answer s (bare .spansWrap)))
    ∧ (x.state ≠ .off → l.closed = false → s.outputFits e = true → e.pointsFit x.modulus = true →
      s.wouldSpan e = false → 32 ≤ l.items.length → place = .next (answer s (bare .listFull)))
    ∧ (x.state ≠ .off → l.closed = false → passes → s.lowestFree = none →
      place = .next (answer s (bare .noSlot)))
    ∧ (∀ h, x.state ≠ .off → l.closed = false → passes → s.lowestFree = some h →
      close = false ∨ x.state = .running ∨ x.state = .halting →
      (∀ k < h, s.slot k ≠ .free) ∧ s.slot h = .free
      ∧ place = .next (answer
        ((s.setSlot h (.staged e true)).setList e.axis ⟨l.items ++ [.place h], close, l.change + 1#8⟩)
        (.ready .done ([byteOf e.axis, byteOf (l.items.length + 1), boolByte close, l.change + 1#8, 0#8, 0#8, 0#8]
          ++ bytesOf 2 h ++ [0#8, 0#8]) .nothing)))
    ∧ (∀ h, x.state = .halted ∨ x.state = .faulted → s.busy e.axis = false → l = ⟨[], false, l.change⟩ → passes →
      s.lowestFree = some h → close = true →
      place = .next (answer
        ((((s.withoutHandings h).setSlot h (.live e true Run.fresh)).setList e.axis
          ⟨[], false, l.change + 2#8⟩).settleAll e.axis [h])
        (.ready .done ([byteOf e.axis, 0#8, 0#8, l.change + 2#8, 1#8, 1#8, 0#8] ++ bytesOf 2 h ++ [0#8, 0#8])
          .nothing)))
    ∧ (∀ h, x.state = .halted ∨ x.state = .faulted → l.closed = false → passes → s.lowestFree = some h → close = true →
      ∃ t payload, exec (.closeList ⟨frameRest 0x34#8 tag [byteOf e.axis], .prompt⟩)
          ((s.setSlot h (.staged e true)).setList e.axis ⟨l.items ++ [.place h], false, l.change⟩)
        = .next (t.answers 0x34#8 tag (.ready .done payload .nothing))
      ∧ place = .next (answer t (.ready .done (payload.take 7 ++ bytesOf 2 h ++ [0#8, 0#8]) .nothing)))

/-- R107, R109, R114, R116: an ALTER of a LIVE entry, its values fitting, adds an ALTER item or merges its values over
those of the one there, and leaves the slot; of a STAGED entry it writes the staged values afresh; with close-after the
list of a RUNNING or HALTING axis is then closed, and on a HALTED or FAULTED axis the request does what a CLOSE_LIST of
the list it leaves does. A notify value for a MARK is taken as yes. Values that the kind does not carry or that do not
fit are refused with BAD_VALUE, a once-per-revolution window that would span the wrap with SPANS_WRAP, a new item for a
full list with LIST_FULL; an entry that a RETIRE item names with ENTRY_RETIRING, and a closed list with LIST_SEALED. One
found inconsistent is fenced and refused with FENCED; a FENCED entry answers FENCED, and a slot without an entry in
service NO_SUCH_ENTRY. (That an entry fenced while STAGED has a fresh log is DEDUCED: log entry 9.) (Stated where the
block works at the acceptance; the other pace is an operand: log entry 13.) -/
def Obligations.AlterWaitsInTheList : Prop :=
  ∀ (s : State) (tag : Byte) (h : Nat) (v : AlterValues) (e : Entry) (close : Bool), s.ReadyAlone tag → h < 512 → v.InRange →
    let l := s.list e.axis
    let x := s.axis e.axis
    let alter := exec (.alter ⟨frameRest 0x31#8 tag (alterArgs h v close), .prompt⟩) s
    let answer (t : State) (w : Work) : State := t.answers 0x31#8 tag w
    let waits := close = false ∨ x.state = .running ∨ x.state = .halting
    let done (n : Nat) : Work := .ready .done
      [byteOf e.axis, byteOf n, boolByte close, l.change + 1#8, 0#8, 0#8, 0#8, 0#8, 0#8, 0#8, 0#8] .nothing
    let v' : AlterValues := if e.kind = .mark then { v with notify := v.notify.map (fun _ => true) } else v
    let merged (held : Option AlterValues) : AlterValues := match held with
      | none => v'
      | some w => ⟨v'.on.or w.on, v'.off.or w.off, v'.duration.or w.duration, v'.qualifier.or w.qualifier,
          v'.oncePerRev.or w.oncePerRev, v'.notify.or w.notify, v'.label.or w.label⟩
    let unfit (after : Entry) := v'.alien e = true ∨ v'.pointsFit after x.modulus = false
    let applies := close = true ∧ (x.state = .halted ∨ x.state = .faulted)
    let asClosed (u : State) (items : List Item) : Prop :=
      ∃ t w, exec (.closeList ⟨frameRest 0x34#8 tag [byteOf e.axis], .prompt⟩) (u.setList e.axis ⟨items, false, l.change⟩)
          = .next (t.answers 0x34#8 tag w) ∧ alter = .next (answer t w)
    (∀ r held, s.slot h = .live e true r → x.state ≠ .off → l.closed = false →
      l.itemOf h = held.map (Item.alter h) →
      let after := (merged held).writeTo e
      (unfit after → alter = .next (answer s (bare .badValue)))
      ∧ (¬ unfit after → s.wouldSpan after = true → alter = .next (answer s (bare .spansWrap)))
      ∧ (¬ unfit after → s.wouldSpan after = false → held = none → 32 ≤ l.items.length →
        alter = .next (answer s (bare .listFull)))
      ∧ (¬ unfit after → s.wouldSpan after = false → held = none → l.items.length < 32 →
        (waits → alter = .next (answer (s.setList e.axis ⟨l.items ++ [.alter h v'], close, l.change + 1#8⟩)
          (done (l.items.length + 1))))
        ∧ (applies → asClosed s (l.items ++ [.alter h v'])))
      ∧ (¬ unfit after → s.wouldSpan after = false → held ≠ none →
        let items := l.items.map (fun i => if i.names h then .alter h (merged held) else i)
        (waits → alter = .next (answer (s.setList e.axis ⟨items, close, l.change + 1#8⟩) (done l.items.length)))
        ∧ (applies → asClosed s items)))
    ∧ (s.slot h = .staged e true → x.state ≠ .off → l.closed = false → l.itemOf h = some (.place h) →
      let after := v'.writeTo e
      (unfit after → alter = .next (answer s (bare .badValue)))
      ∧ (¬ unfit after → s.wouldSpan after = true → alter = .next (answer s (bare .spansWrap)))
      ∧ (¬ unfit after → s.wouldSpan after = false →
        (waits → alter = .next (answer ((s.setSlot h (.staged after true)).setList e.axis
          ⟨l.items, close, l.change + 1#8⟩) (done l.items.length)))
        ∧ (applies → asClosed (s.setSlot h (.staged after true)) l.items)))
    ∧ (∀ r, s.slot h = .live e false r → ∃ t, alter = .next t ∧ t.slot h = .fenced e false r.log
        ∧ t.port = (s.answers 0x31#8 tag (bare .fenced)).port ∧ t.report.isSome = true)
    ∧ (s.slot h = .staged e false → ∃ t, alter = .next t ∧ t.slot h = .fenced e false FireLog.fresh
        ∧ (t.list e.axis).items = l.items.filter (fun i => !i.names h)
        ∧ t.port = (s.answers 0x31#8 tag (bare .fenced)).port ∧ t.report.isSome = true)
    ∧ (∀ r, s.slot h = .live e true r → x.state ≠ .off → l.closed = false →
      l.itemOf h = some (.retire h) → alter = .next (answer s (bare .entryRetiring)))
    ∧ ((s.slot h).inService (fun e' => e' == e) = true → (s.slot h).failsCheck = false → (s.slot h).lifecycle ≠ .fenced →
      x.state ≠ .off → l.closed = true → alter = .next (answer s (bare .listSealed)))
    ∧ (∀ ok log, s.slot h = .fenced e ok log → alter = .next (answer s (bare .fenced)))
    ∧ ((s.slot h).lifecycle ∈ [Lifecycle.free, .unread, .disabled] → alter = .next (answer s (bare .noSuchEntry)))

/-- R110, R111, R114, R116: a RETIRE of a LIVE entry adds a RETIRE item, or puts it in the place of its ALTER item, and
leaves the entry in force; of a STAGED entry it removes the PLACE item and frees the slot; with close-after the list of
a RUNNING or HALTING axis is then closed, if it holds an item, and on a HALTED or FAULTED axis the request does what a
CLOSE_LIST of the list it leaves does, with the handle and the state of its slot in the answer. Of a FENCED entry it
makes the slot FREE, or UNREAD while its notification waits, and touches no list; a LIVE or STAGED entry found
inconsistent is fenced first. A new item for a full list is refused with LIST_FULL, an entry that a RETIRE item names
with ENTRY_RETIRING, a closed list with LIST_SEALED, and a slot without an entry in service with NO_SUCH_ENTRY. (That an
entry fenced while STAGED has no notification waiting is DEDUCED: log entry 9.) (Stated where the block works at the
acceptance; the other pace is an operand: log entry 13.) -/
def Obligations.RetireByLifecycleState : Prop :=
  ∀ (s : State) (tag : Byte) (h : Nat) (e : Entry) (close : Bool), s.ReadyAlone tag → h < 512 →
    let l := s.list e.axis
    let x := s.axis e.axis
    let retire := exec (.retire ⟨frameRest 0x32#8 tag (bytesOf 2 h ++ [boolByte close]), .prompt⟩) s
    let answer (t : State) (w : Work) : State := t.answers 0x32#8 tag w
    let waits := close = false ∨ x.state = .running ∨ x.state = .halting
    let done (n : Nat) (closed : Bool) (change : Byte) (v : Lifecycle) : Work := .ready .done
      ([byteOf e.axis, byteOf n, boolByte closed, change, 0#8, 0#8, 0#8] ++ bytesOf 2 h ++ [v.code, 0#8]) .nothing
    let unsealed := x.state ≠ .off ∧ l.closed = false
    let applies := close = true ∧ (x.state = .halted ∨ x.state = .faulted)
    let asClosed (u : State) (items : List Item) : Prop :=
      ∃ t payload, exec (.closeList ⟨frameRest 0x34#8 tag [byteOf e.axis], .prompt⟩)
          (u.setList e.axis ⟨items, false, l.change⟩) = .next (t.answers 0x34#8 tag (.ready .done payload .nothing))
        ∧ retire = .next (answer t
          (.ready .done (payload.take 7 ++ bytesOf 2 h ++ [(t.slot h).lifecycle.code, 0#8]) .nothing))
    (∀ r, s.slot h = .live e true r → unsealed → l.itemOf h = none →
      (l.items.length < 32 →
        (waits → retire = .next (answer (s.setList e.axis ⟨l.items ++ [.retire h], close, l.change + 1#8⟩)
          (done (l.items.length + 1) close (l.change + 1#8) .live)))
        ∧ (applies → asClosed s (l.items ++ [.retire h])))
      ∧ (32 ≤ l.items.length → retire = .next (answer s (bare .listFull))))
    ∧ (∀ r v, s.slot h = .live e true r → unsealed → l.itemOf h = some (.alter h v) →
      let items := l.items.map (fun i => if i.names h then .retire h else i)
      (waits → retire = .next (answer (s.setList e.axis ⟨items, close, l.change + 1#8⟩)
        (done l.items.length close (l.change + 1#8) .live)))
      ∧ (applies → asClosed s items))
    ∧ (∀ r, s.slot h = .live e true r → unsealed → l.itemOf h = some (.retire h) →
      retire = .next (answer s (bare .entryRetiring)))
    ∧ (s.slot h = .staged e true → unsealed → l.itemOf h = some (.place h) →
      let left := l.items.filter (fun i => !i.names h)
      let closed := close && !left.isEmpty
      (waits ∨ left = [] → retire = .next (answer ((s.setSlot h .free).setList e.axis ⟨left, closed, l.change + 1#8⟩)
        (done left.length closed (l.change + 1#8) .free)))
      ∧ (applies → left ≠ [] → asClosed (s.setSlot h .free) left))
    ∧ (∀ ok log, s.slot h = .fenced e ok log →
      (log.notifyPending = false →
        retire = .next (answer (s.setSlot h .free) (done l.items.length l.closed l.change .free)))
      ∧ (log.notifyPending = true →
        retire = .next (answer (s.setSlot h (.unread e ok log))
          (done l.items.length l.closed l.change .unread))))
    ∧ (∀ r, s.slot h = .live e false r → ∃ t, retire = .next t ∧ t.report.isSome = true
      ∧ t.slot h = if r.log.notifyPending then .unread e false r.log else .free)
    ∧ (s.slot h = .staged e false → ∃ t, retire = .next t ∧ t.report.isSome = true ∧ t.slot h = .free
      ∧ (t.list e.axis).items = l.items.filter (fun i => !i.names h))
    ∧ ((s.slot h).inService (fun e' => e' == e) = true → (s.slot h).failsCheck = false → (s.slot h).lifecycle ≠ .fenced →
      x.state ≠ .off → l.closed = true → retire = .next (answer s (bare .listSealed)))
    ∧ ((s.slot h).lifecycle ∈ [Lifecycle.free, .unread, .disabled] → retire = .next (answer s (bare .noSuchEntry)))

/-- R112, R114, R116: a SET_LEAD that fits adds a SET_LEAD item to the list of the output's axis, or replaces the lead
of the item that names the output in its place, and with close-after closes the list of a RUNNING or HALTING axis, and
on a HALTED or FAULTED axis does what a CLOSE_LIST of the list it leaves does; for an unbound output it is refused with
MISMATCH, under a closed list with LIST_SEALED, for a lead whose magnitude reaches the modulus with BAD_VALUE, for a
window it would have span the wrap with SPANS_WRAP, and for a new item of a full list with LIST_FULL. The record's lead
does not change before the list is applied. (Stated where the block works at the acceptance; the other pace is an
operand: log entry 13.) -/
def Obligations.SetLeadWaitsInTheList : Prop :=
  ∀ (s : State) (tag : Byte) (o : OutId) (lead : Int) (close : Bool), s.ReadyAlone tag → -2048 ≤ lead → lead ≤ 2047 →
    let set := exec (.setLead ⟨frameRest 0x33#8 tag ([byteOf o] ++ signedBytesOf 2 lead ++ [boolByte close]), .prompt⟩) s
    let answer (t : State) (w : Work) : State := t.answers 0x33#8 tag w
    ((s.output o).binding = none → set = .next (answer s (bare .mismatch)))
    ∧ ∀ a, (s.output o).binding = some a → (s.axis a).state ≠ .off →
      let l := s.list a
      let waits := close = false ∨ (s.axis a).state = .running ∨ (s.axis a).state = .halting
      let done (n : Nat) : Work := .ready .done
        [byteOf a, byteOf n, boolByte close, l.change + 1#8, 0#8, 0#8, 0#8, 0#8, 0#8, 0#8, 0#8] .nothing
      let asClosed (items : List Item) : Prop := close = true → (s.axis a).state = .halted ∨ (s.axis a).state = .faulted →
        ∃ t w, exec (.closeList ⟨frameRest 0x34#8 tag [byteOf a], .prompt⟩) (s.setList a ⟨items, false, l.change⟩)
          = .next (t.answers 0x34#8 tag w) ∧ set = .next (answer t w)
      (l.closed = true → set = .next (answer s (bare .listSealed)))
      ∧ (l.closed = false → (s.axis a).modulus ≤ lead.natAbs → set = .next (answer s (bare .badValue)))
      ∧ (l.closed = false → lead.natAbs < (s.axis a).modulus → s.leadWouldSpan a o lead = true →
        set = .next (answer s (bare .spansWrap)))
      ∧ (l.closed = false → lead.natAbs < (s.axis a).modulus → s.leadWouldSpan a o lead = false →
        (l.items.any (Item.leads o) = false → 32 ≤ l.items.length → set = .next (answer s (bare .listFull)))
        ∧ (l.items.any (Item.leads o) = false → l.items.length < 32 →
          (waits → set = .next (answer (s.setList a ⟨l.items ++ [.setLead o lead], close, l.change + 1#8⟩)
            (done (l.items.length + 1))))
          ∧ asClosed (l.items ++ [.setLead o lead]))
        ∧ (l.items.any (Item.leads o) = true →
          let items := l.items.map (fun i => if i.leads o then .setLead o lead else i)
          (waits → set = .next (answer (s.setList a ⟨items, close, l.change + 1#8⟩) (done l.items.length)))
          ∧ asClosed items))

/-- R116, R128: CLOSE_LIST closes an open list with items on a RUNNING or HALTING axis, answers NOTHING_PENDING for an
empty open list and changes nothing for a closed one; DISCARD removes every item, frees the slots of the PLACE items and
leaves the other slots, and opens an empty closed list. Both are refused with WRONG_STATE on an OFF axis. (Stated where
the block works at the acceptance; the other pace is an operand: log entry 13.) -/
def Obligations.CloseAndDiscardAList : Prop :=
  ∀ (s : State) (tag : Byte) (a : AxisId), s.ReadyAlone tag →
    let l := s.list a
    let close := exec (.closeList ⟨frameRest 0x34#8 tag [byteOf a], .prompt⟩) s
    let discard := exec (.discard ⟨frameRest 0x35#8 tag [byteOf a], .prompt⟩) s
    let done (n : Nat) (closed : Bool) (change : Byte) (removed : Nat) : Work := .ready .done
      [byteOf a, byteOf n, boolByte closed, change, 0#8, 0#8, 0#8, 0#8, 0#8, 0#8, byteOf removed] .nothing
    ((s.axis a).state = .off → close = .next (s.answers 0x34#8 tag (bare .wrongState))
      ∧ discard = .next (s.answers 0x35#8 tag (bare .wrongState)))
    ∧ ((s.axis a).state ≠ .off →
      ((s.axis a).state = .running ∨ (s.axis a).state = .halting → l.closed = false → l.items ≠ [] →
        close = .next ((s.setList a ⟨l.items, true, l.change + 1#8⟩).answers 0x34#8 tag
          (done l.items.length true (l.change + 1#8) 0)))
      ∧ (l.closed = false → l.items = [] → close = .next (s.answers 0x34#8 tag (bare .nothingPending)))
      ∧ (l.closed = true → close = .next (s.answers 0x34#8 tag (done l.items.length true l.change 0)))
      ∧ (l.items ≠ [] → ∃ t, discard = .next t
        ∧ t.list a = ⟨[], false, l.change + 1#8⟩ ∧ (∀ b, b ≠ a → t.list b = s.list b)
        ∧ t.port = (s.answers 0x35#8 tag (done 0 false (l.change + 1#8) l.items.length)).port
        ∧ t.axes = s.axes ∧ t.outputs = s.outputs
        ∧ (∀ h, (s.slot h).lifecycle = .staged → Item.place h ∈ l.items → t.slot h = .free)
        ∧ (∀ h, ¬ ((s.slot h).lifecycle = .staged ∧ Item.place h ∈ l.items) → t.slot h = s.slot h))
      ∧ (l.items = [] → l.closed = false → discard = .next (s.answers 0x35#8 tag (bare .nothingPending)))
      ∧ (l.items = [] → l.closed = true →
        discard = .next ((s.setList a ⟨[], false, l.change + 1#8⟩).answers 0x35#8 tag (bare .nothingPending))))

/-- R117, R120 to R125, R131, R132: a CLOSE_LIST on a HALTED or FAULTED axis applies the list within the request,
without BATCH_APPLIED. Shown for a list of one item. On an UNREFERENCED or FAULTED axis a PLACE makes its STAGED entry
LIVE and never fired, a handing for its slot that a channel has stopped before being discarded, an ALTER ends its
activity, writes its values and clears spent, a RETIRE ends its activity and makes the slot FREE or UNREAD, a SET_LEAD
ends the activity of the LIVE entries of its output and writes the lead. A REFERENCED HALTED axis settles the entry
placed or altered, and those of an output whose lead is set: a WINDOW that is not spent and contains the position fires
with direction NONE, and any other entry stays as it was applied. An entry found inconsistent is fenced; its item is
dropped, counted in the answer. (That the handing is discarded before the entry becomes LIVE is the model's choice: log
entry 13.) (That an entry fenced while STAGED has a fresh log is DEDUCED: log entry 9.) (Stated where the block works at
the acceptance; the other pace is an operand: log entry 13.) -/
def Obligations.EachItemIsAppliedOnClose : Prop :=
  ∀ (s : State) (tag : Byte) (a : AxisId) (h : Nat) (e : Entry), s.ReadyAlone tag → s.busy a = false →
    let x := s.axis a
    x.state = .halted ∨ x.state = .faulted → (s.list a).closed = false → e.axis = a →
    let close := exec (.closeList ⟨frameRest 0x34#8 tag [byteOf a], .prompt⟩) s
    let answer (change : Byte) (applied dropped : Byte) : Work := .ready .done
      [byteOf a, 0#8, 0#8, change, 1#8, applied, dropped, 0#8, 0#8, 0#8, 0#8] .nothing
    let applied (t : State) : State :=
      (t.setList a ⟨[], false, (s.list a).change + 2#8⟩).answers 0x34#8 tag (answer ((s.list a).change + 2#8) 1#8 0#8)
    let placed (r : Run) : State := (s.withoutHandings h).setSlot h (.live e true r)
    let altered (v : AlterValues) (r : Run) : State := (s.endActivity h).setSlot h (.live (v.writeTo e) true r)
    let counted (o : OutId) (t : State) : State :=
      t.setOutput o { t.output o with windowCount := (t.output o).windowCount + 1 }
    let ended (k : Kind) (o : OutId) : Nat := handles.countP (fun h => (s.slot h).drives k o)
    (x.referenced = false ∨ x.state = .faulted →
      ((s.list a).items = [.place h] → s.slot h = .staged e true →
        close = .next (applied (placed ⟨.idle, false, ⟨0#16, none, false, 0⟩⟩)))
      ∧ (∀ v r, (s.list a).items = [.alter h v] → s.slot h = .live e true r →
        close = .next (applied (altered v ⟨.idle, false, r.log⟩))))
    ∧ (∀ r, (s.list a).items = [.retire h] → s.slot h = .live e true r →
      close = .next (applied ((s.endActivity h).setSlot h
        (if r.log.notifyPending then .unread e true r.log else .free))))
    ∧ (x.state = .halted → x.referenced = true → h < 512 →
      ((s.list a).items = [.place h] → s.slot h = .staged e true →
        (e.off?.any (s.inWindow e) = false → close = .next (applied (placed Run.fresh)))
        ∧ (∀ o off, e.action = .window o off → s.inWindow e off = true → close = .next (applied (counted o
          (placed (fireLeaves Run.fresh e x.revolution .none (.active none) true))))))
      ∧ (∀ v r, (s.list a).items = [.alter h v] → s.slot h = .live e true r →
        let e' := v.writeTo e
        let idle : Run := ⟨.idle, false, r.log⟩
        (e'.off?.any (s.inWindow e') = false → close = .next (applied (altered v idle)))
        ∧ (∀ o off, e'.action = .window o off → s.inWindow e' off = true → close = .next (applied (counted o
          (altered v (fireLeaves idle e' x.revolution .none (.active none) true)))))))
    ∧ (∀ o lead, (s.list a).items = [.setLead o lead] → ∃ t, close = .next t
      ∧ (t.output o).lead = lead ∧ t.list a = ⟨[], false, (s.list a).change + 2#8⟩
      ∧ t.port = (s.answers 0x34#8 tag (answer ((s.list a).change + 2#8) 1#8 0#8)).port
      ∧ t.latched = s.latched ∧ t.axes = s.axes
      ∧ (∀ k < Config.slotCount, (s.slot k).liveWith (Entry.targets o) = false → t.slot k = s.slot k)
      ∧ (x.referenced = false ∨ x.state = .faulted →
        t.output o = { s.output o with
          lead := lead
          windowCount := (s.output o).windowCount - ended .window o
          pulseCount := (s.output o).pulseCount - ended .pulse o }
        ∧ ∀ k < Config.slotCount, ∀ e ok r, s.slot k = .live e ok r → e.output = some o →
          t.slot k = .live e ok { r with activity := .idle })
      ∧ (x.state = .halted → x.referenced = true → ∀ k < Config.slotCount, ∀ e ok r, s.slot k = .live e ok r →
        e.output = some o → e.axis = a →
        t.slot k =
          if ok = false then .fenced e false r.log
          else if r.spent = false ∧ e.off?.any (t.inWindow e) = true then
            .live e true (fireLeaves { r with activity := .idle } e x.revolution .none (.active none) true)
          else .live e true { r with activity := .idle }))
    ∧ (∀ i log, (s.list a).items = [i] →
      (i = .place h ∧ s.slot h = .staged e false ∧ log = FireLog.fresh)
        ∨ (∃ r, ((∃ v, i = .alter h v) ∨ i = .retire h) ∧ s.slot h = .live e false r ∧ log = r.log) →
      ∃ t, close = .next t ∧ t.slot h = .fenced e false log ∧ t.list a = ⟨[], false, (s.list a).change + 3#8⟩
        ∧ t.port = (s.answers 0x34#8 tag (answer ((s.list a).change + 3#8) 0#8 1#8)).port
        ∧ t.latched = s.latched ∧ t.axes = s.axes ∧ t.report.isSome = true ∧ ∀ k, k ≠ h → t.slot k = s.slot k)

/-! ### Reads -/

/-- R44, R102, R129, R184, R192: READ_STATUS, READ_OUTPUT, READ_AXIS and READ_PENDING answer DONE with the records, and
change nothing: the condition, the latched set and the mask, the members of the notify set, whether the fault report is
valid, the six slot counts, which sum to 512, the four axis states, the family code and the revision number; the record
of an output; the record of an axis; up to six items of a list, 19 bytes each. The items of READ_STATUS, and the record
and the numbers of entries of READ_OUTPUT, may be taken on either side of other claims: those before a stop are of the
state at the request, those after it of the state in which it goes on. (Where they fall is an operand: log entry 13.
That the four axis states are four claims is the model's choice: log entry 20. That the bytes of a qualifier, duration,
once per revolution or notify that an item does not carry are 00h is the model's choice, log entry 15, and so are bits 3
to 7 of the recognized lines, log entry 19.) -/
def Obligations.RecordReadsChangeNothing : Prop :=
  ∀ (s : State) (tag : Byte) (a : AxisId) (o : OutId) (start : Nat), s.Ready tag → start ≤ 31 →
    let x := s.axis a
    let l := s.list a
    let status (pace : Pace) := exec (.readStatus ⟨frameRest 0x02#8 tag [], pace⟩) s
    let output (pace : Pace) := exec (.readOutput ⟨frameRest 0x23#8 tag [byteOf o], pace⟩) s
    let names : List ReadItem :=
      [.condition, .attention, .members, .report, .slots, .axis 0, .axis 1, .axis 2, .axis 3, .silicon]
    let items (s : State) : List (List Byte) :=
      [[s.condition.code], [s.latched.setWidth 8, s.mask.setWidth 8], bytesOf 2 s.notifySet.length,
        [boolByte s.report.isSome],
        bytesOf 2 (s.countIn .free) ++ bytesOf 2 (s.countIn .staged) ++ bytesOf 2 (s.countIn .live)
          ++ bytesOf 2 (s.countIn .unread) ++ bytesOf 2 (s.countIn .fenced) ++ bytesOf 2 (s.countIn .disabled),
        [(s.axis 0).state.code], [(s.axis 1).state.code], [(s.axis 2).state.code], [(s.axis 3).state.code], [0x34#8, 1#8]]
    let record (s : State) : List Byte :=
      let y := s.output o
      [byteOf o, bindingByte y.binding, y.drive.code, y.polarity.code, y.safeLevel.code, boolByte y.toggleInitial,
          y.mode.code]
        ++ signedBytesOf 2 y.lead ++ bytesOf 2 y.windowCount ++ bytesOf 2 y.pulseCount
        ++ [boolByte y.latch, boolByte y.safeHold, boolByte y.faultHold, boolByte y.held, boolByte y.computed,
            boolByte (s.pinLevel o)]
    let numbers (s : State) : List Byte := bytesOf 2 (s.targeting o) ++ bytesOf 2 (s.fencedTargeting o)
    let values (v : AlterValues) : List Byte :=
      bytesOf 2 (v.on.getD 0) ++ bytesOf 2 (v.off.getD 0) ++ bytesOf 2 (v.duration.getD 0)
        ++ [(v.qualifier.map Qualifier.code).getD 0#8, boolByte (v.oncePerRev.getD false), boolByte (v.notify.getD false)]
        ++ bytesOf 2 ((v.label.map BitVec.toNat).getD 0)
    let bit (present : Bool) (n : Nat) : Nat := if present then n else 0
    let mask (v : AlterValues) : Byte := byteOf (bit v.on.isSome 1 + bit v.off.isSome 2 + bit v.duration.isSome 4
      + bit v.qualifier.isSome 8 + bit v.oncePerRev.isSome 16 + bit v.notify.isSome 32 + bit v.label.isSome 64)
    let item (k : Nat) (i : Item) : List Byte := match i with
      | .place h => match (s.slot h).entry? with
        | some e =>
          let v : AlterValues :=
            ⟨some e.on, e.off?, e.duration?, e.qualifier?, some e.oncePerRev, some e.notify, some e.label⟩
          [1#8, byteOf k] ++ bytesOf 2 h ++ [byteOf e.axis, e.kind.code, (e.output.map (fun o => byteOf o)).getD 0xFF#8,
            mask v] ++ values v
        | none => [1#8, byteOf k] ++ bytesOf 2 h ++ List.replicate 15 0#8
      | .alter h v => [2#8, byteOf k] ++ bytesOf 2 h ++ [0#8, 0#8, 0#8, mask v] ++ values v
      | .retire h => [3#8, byteOf k] ++ bytesOf 2 h ++ List.replicate 15 0#8
      | .setLead o lead =>
        [4#8, byteOf k, 0#8, 0#8, 0#8, 0#8, byteOf o, 0#8] ++ signedBytesOf 2 lead ++ List.replicate 9 0#8
    let shown := (l.items.drop start).take 6
    let completes (code : Byte) (t : State) (payload : State → List Byte) : Prop :=
      (∃ w, t = s.answers code tag w) ∧ ∀ u : State, u.port = t.port → exec .requestCompletion u = .next { u with
        port := ⟨.idle, some ⟨tag, .done, payload u⟩, some tag, ⟨false, false, false⟩⟩
        latched := u.latched ||| reasonRequestDone }
    status .prompt = .next (s.answers 0x02#8 tag (.ready .done (items s).flatten .nothing))
    ∧ s.countIn .free + s.countIn .staged + s.countIn .live + s.countIn .unread + s.countIn .fenced
        + s.countIn .disabled = 512
    ∧ (∀ (k : Nat) (i : ReadItem), names[k]? = some i → ∃ t, status ⟨false, [.item i], []⟩ = .next t
      ∧ completes 0x02#8 t (fun u => ((items s).take k ++ (items u).drop k).flatten))
    ∧ (∃ t, status ⟨false, [.item .condition], [.attention]⟩ = .next t
      ∧ completes 0x02#8 t (fun u => ([[u.condition.code], [s.latched.setWidth 8, s.mask.setWidth 8]]
        ++ (items u).drop 2).flatten))
    ∧ output .prompt = .next (s.answers 0x23#8 tag (.ready .done (record s ++ numbers s) .nothing))
    ∧ (∃ t, output ⟨false, [.item (.targets o)], []⟩ = .next t ∧ completes 0x23#8 t (fun u => record s ++ numbers u))
    ∧ (∃ t, output ⟨false, [.item (.output o)], [.targets o]⟩ = .next t
      ∧ completes 0x23#8 t (fun u => record u ++ numbers s))
    ∧ (s.ReadyAlone tag →
      exec (.readAxis ⟨frameRest 0x16#8 tag [byteOf a], .prompt⟩) s = .next (s.answers 0x16#8 tag (.ready .done
        ([x.state.code, x.source.code] ++ bytesOf 3 x.modulus ++ bytesOf 2 x.position ++ bytesOf 2 x.revolution.toNat
          ++ [boolByte x.referenced, boolByte x.indexPoint.isSome] ++ bytesOf 2 (x.indexPoint.getD 0)
          ++ [x.tolerance, boolByte x.invert, x.filter, x.faultAction.code]
          ++ signedBytesOf 4 x.rate ++ signedBytesOf 2 x.remainder ++ signedBytesOf 2 x.backlog
          ++ [byteOf x.corrections, lastFaultCode x.lastFault] ++ bytesOf 2 x.tracked
          ++ [(if x.lines.a then 1#8 else 0#8) ||| (if x.lines.b then 2#8 else 0#8)
              ||| (if x.lines.z then 4#8 else 0#8)]) .nothing))
      ∧ exec (.readPending ⟨frameRest 0x36#8 tag [byteOf a, byteOf start], .prompt⟩) s =
          .next (s.answers 0x36#8 tag (.ready .done ([byteOf a, boolByte l.closed, byteOf l.items.length, l.change,
            byteOf shown.length] ++ ((List.range shown.length).zipWith (fun k i => item (start + k) i) shown).flatten)
            .nothing)))
    ∧ ∀ k i, (item k i).length = 19

/-- R17, R22, R23, R160, R192: READ_ENTRY answers the 32-byte record of an entry it finds consistent and changes
nothing; one found inconsistent it fences, LIVE or STAGED, dropping its item, giving its output the fault hold with an
ACTIVE entry taken from its count, and reporting ENTRY_CHECK, and answers DONE with the record of the FENCED entry; a
FREE or DISABLED slot answers NO_SUCH_ENTRY. (That the bytes of an absent field for which R190 states none are 00h is
the model's choice, log entry 15, and so is bit 7 of the presence byte, log entry 19.) (Stated where the block works at
the acceptance; the other pace is an operand: log entry 13.) (That an entry fenced while STAGED has a fresh log is
DEDUCED: log entry 9.) -/
def Obligations.ReadEntryChecksTheEntry : Prop :=
  ∀ (s : State) (tag : Byte) (h : Nat), s.ReadyAlone tag → h < 512 →
    let read := exec (.readEntry ⟨frameRest 0x38#8 tag (bytesOf 2 h), .prompt⟩) s
    let bit (present : Bool) (n : Nat) : Nat := if present then n else 0
    let record (t : State) (e : Entry) : List Byte :=
      let v := t.slot h
      let live := v.lifecycle == .live
      let effective := live || v.lifecycle == .fenced
      let run : Run := match v with
        | .live _ _ r => r
        | .fenced _ _ log | .unread _ _ log => ⟨.idle, false, log⟩
        | _ => ⟨.idle, false, ⟨0#16, none, false, 0⟩⟩
      let m := run.log
      let kept := live || v.lifecycle == .fenced || v.lifecycle == .unread
      let effectiveOf (p : Nat) : Nat :=
        ((p - (e.output.map (fun o => (t.output o).lead)).getD 0 : Int) % ((t.axis e.axis).modulus : Int)).toNat
      let waiting : Option Item :=
        if v.lifecycle = .staged ∨ live then (t.list e.axis).items.find? (Item.names h) else none
      [v.lifecycle.code] ++ bytesOf 2 h
        ++ [byteOf e.axis, e.kind.code, (e.output.map (fun o => byteOf o)).getD 0xFF#8]
        ++ bytesOf 2 e.on ++ bytesOf 2 (e.off?.getD 0) ++ bytesOf 2 (e.duration?.getD 0)
        ++ [(e.qualifier?.map Qualifier.code).getD 0#8, boolByte e.oncePerRev, boolByte e.notify]
        ++ bytesOf 2 e.label.toNat
        ++ [boolByte (run.activity != .idle), boolByte run.spent] ++ bytesOf 2 m.passCount.toNat
        ++ [byteOf (bit e.off?.isSome 1 + bit e.duration?.isSome 2 + bit e.qualifier?.isSome 4 + bit kept 8
          + bit m.lastFire.isSome 16 + bit live 32 + bit effective 64)]
        ++ bytesOf 2 ((m.lastFire.map (fun f => f.revolution.toNat)).getD 0)
        ++ [(m.lastFire.map (fun f => f.direction.code)).getD 0#8, boolByte m.notifyPending, byteOf m.missed,
          match waiting with
          | none => 0#8
          | some (.place _) => 1#8
          | some (.alter _ _) => 2#8
          | some (.retire _) => 3#8
          | some (.setLead _ _) => 4#8]
        ++ bytesOf 2 (if effective then effectiveOf e.on else 0)
        ++ bytesOf 2 (if effective then (e.off?.map effectiveOf).getD 0 else 0)
    (∀ e, (s.slot h).entry? = some e → (s.slot h).failsCheck = false →
      read = .next (s.answers 0x38#8 tag (.ready .done (record s e) .nothing)) ∧ (record s e).length = 32)
    ∧ (s.slot h = .free ∨ s.slot h = .disabled →
      read = .next (s.answers 0x38#8 tag (bare .noSuchEntry)))
    ∧ (∀ e log, ∀ active : Bool, (s.slot h = .staged e false ∧ log = FireLog.fresh ∧ active = false)
        ∨ (∃ r, s.slot h = .live e false r ∧ log = r.log ∧ (active = true ↔ r.activity ≠ .idle)) →
      ∃ t, read = .next t
      ∧ t.port = (s.answers 0x38#8 tag (.ready .done (record t e) .nothing)).port
      ∧ (record t e).head? = some 4#8
      ∧ t.slot h = .fenced e false log
      ∧ (∀ k, k ≠ h → t.slot k = s.slot k)
      ∧ (t.list e.axis).items = (s.list e.axis).items.filter (fun i => !i.names h)
      ∧ (t.list e.axis).closed = (s.list e.axis).closed
      ∧ (∀ o, e.output = some o → t.output o = { s.output o with
          faultHold := true
          held := if (s.output o).safeHold || (s.output o).faultHold then (s.output o).held else (s.output o).pin
          windowCount := if active = true ∧ e.kind = .window then (s.output o).windowCount - 1
            else (s.output o).windowCount
          pulseCount := if active = true ∧ e.kind = .pulse then (s.output o).pulseCount - 1
            else (s.output o).pulseCount })
      ∧ (∀ o, e.output ≠ some o → t.output o = s.output o)
      ∧ t.axes = s.axes
      ∧ (s.report = none →
          t.report = some ⟨.entryCheck h, e.axis, (s.axis e.axis).position, (s.axis e.axis).revolution, 0⟩)
      ∧ (∀ p, s.report = some p →
          t.report = some { p with further := if p.further < 255 then p.further + 1 else p.further }))

/-- R21, R24, R25, R192: the order of an axis holds each LIVE and FENCED entry of the axis once, by effective on point
and then handle; LIST_AXIS answers with the first eight entries of it not below the cursor, 12 bytes each, fencing those
it finds inconsistent, and changes nothing where there are none; for an OFF axis it answers with the end marker alone.
(Stated where the block works at the acceptance; the other pace is an operand: log entry 13.) -/
def Obligations.ListAxisFollowsTheOrder : Prop :=
  ∀ (s : State) (tag : Byte) (a : AxisId) (point h : Nat), s.ReadyAlone tag → point < 65536 → h < 512 →
    let list := exec (.listAxis ⟨frameRest 0x39#8 tag ([byteOf a] ++ bytesOf 2 point ++ bytesOf 2 h), .prompt⟩) s
    let selected := (s.order a).filter (fun k => decide (keyLE (point, h) (s.key k)))
    let shown := selected.take 8
    let header : List Byte := match selected[8]? with
      | none => [byteOf shown.length, 1#8, 0#8, 0#8, 0#8, 0#8]
      | some k => [8#8, 0#8] ++ bytesOf 2 (s.keyPoint k) ++ bytesOf 2 k
    let record (t : State) (k : Nat) : List Byte := match t.slot k with
      | .live e _ r =>
        let effectiveOf (p : Nat) : Nat := effectivePoint (t.axis e.axis).modulus (t.leadFor e) p
        bytesOf 2 k ++ [2#8, e.kind.code, (e.output.map (fun o => byteOf o)).getD 0xFF#8]
          ++ bytesOf 2 (effectiveOf e.on) ++ bytesOf 2 ((e.off?.map effectiveOf).getD 0)
          ++ [boolByte (r.activity != .idle), boolByte r.spent, match (t.list e.axis).items.find? (Item.names k) with
            | none => 0#8
            | some (.place _) => 1#8
            | some (.alter _ _) => 2#8
            | some (.retire _) => 3#8
            | some (.setLead _ _) => 4#8]
      | .fenced e _ _ =>
        let effectiveOf (p : Nat) : Nat := effectivePoint (t.axis e.axis).modulus (t.leadFor e) p
        bytesOf 2 k ++ [4#8, e.kind.code, (e.output.map (fun o => byteOf o)).getD 0xFF#8]
          ++ bytesOf 2 (effectiveOf e.on) ++ bytesOf 2 ((e.off?.map effectiveOf).getD 0) ++ [0xFF#8, 0xFF#8, 0#8]
      | _ => []
    (s.order a).Pairwise (fun x y => keyLE (s.key x) (s.key y) ∧ x ≠ y)
    ∧ (∀ k, k ∈ s.order a ↔ k < 512 ∧ (s.slot k).ordered a = true)
    ∧ ((s.axis a).modulus ≤ point → list = .next (s.answers 0x39#8 tag (bare .badValue)))
    ∧ (point < (s.axis a).modulus → (s.axis a).state = .off →
      list = .next (s.answers 0x39#8 tag (.ready .done [0#8, 1#8, 0#8, 0#8, 0#8, 0#8] .nothing)))
    ∧ (point < (s.axis a).modulus → (s.axis a).state ≠ .off → (∀ k ∈ shown, (s.slot k).failsCheck = false) →
      list = .next (s.answers 0x39#8 tag (.ready .done (header ++ (shown.map (record s)).flatten) .nothing)))
    ∧ (∀ k ∈ shown, (record s k).length = 12)
    ∧ (point < (s.axis a).modulus → (s.axis a).state ≠ .off → ∃ t, list = .next t ∧ t.axes = s.axes
      ∧ t.port = (s.answers 0x39#8 tag (.ready .done (header ++ (shown.map (record t)).flatten) .nothing)).port
      ∧ (∀ k, k ∉ shown ∨ (s.slot k).failsCheck = false → t.slot k = s.slot k)
      ∧ (∀ k ∈ shown, (s.slot k).failsCheck = true → (t.slot k).lifecycle = .fenced))

/-- R133, R134, R135, R192: READ_NOTIFY answers with the first eight members from the start handle, 11 bytes each, and
removes them: a LIVE or FENCED slot keeps every field but membership and missed count, a LIVE one found inconsistent is
fenced, an UNREAD slot becomes FREE, and the other slots stay. The members are given as the read leaves them, the missed
count as it stood before it; where every LIVE member returned is consistent the outputs and the lists stay too. A
handing that comes after a read which returned its handle adds it again with missed count 0. (Stated where the block
works at the acceptance; the other pace is an operand: log entry 13.) (A last fire that a member lacks is sent as 00h:
DESIGN CHOICE, log entry 14.) -/
def Obligations.ReadNotifyReturnsAndRemoves : Prop :=
  ∀ (s : State) (tag : Byte) (start : Nat), s.ReadyAlone tag → start < 512 →
    let selected := s.notifySet.filter (fun h => decide (start ≤ h))
    let returned := selected.take 8
    let member (h : Nat) : List Byte :=
      let bytes (state : Byte) (e : Entry) (l : FireLog) : List Byte :=
        bytesOf 2 h ++ [state] ++ bytesOf 2 e.label.toNat ++ [e.kind.code, byteOf e.axis]
          ++ bytesOf 2 ((l.lastFire.map (fun f => f.revolution.toNat)).getD 0)
          ++ [(l.lastFire.map (fun f => f.direction.code)).getD 0#8, byteOf l.missed]
      match s.slot h with
      | .live e ok r => bytes (if ok then 2#8 else 4#8) e r.log
      | .fenced e _ l => bytes 4#8 e l
      | .unread e _ l => bytes 3#8 e l
      | _ => []
    let left (l : FireLog) : FireLog := { l with notifyPending := false, missed := 0 }
    ∃ t, exec (.readNotify ⟨frameRest 0x40#8 tag (bytesOf 2 start), .prompt⟩) s = .next t
      ∧ t.notifySet = s.notifySet.filter (fun h => decide (h ∉ returned))
      ∧ t.axes = s.axes ∧ t.channels = s.channels
      ∧ (∀ h, h ∉ returned → t.slot h = s.slot h)
      ∧ (∀ h ∈ returned, t.slot h = match s.slot h with
          | .live e true r => .live e true { r with log := left r.log }
          | .live e false r => .fenced e false (left r.log)
          | .fenced e ok l => .fenced e ok (left l)
          | _ => .free)
      ∧ t.port = (s.answers 0x40#8 tag (.ready .done
          ([byteOf returned.length, boolByte (selected[8]?).isSome] ++ bytesOf 2 ((selected[8]?).getD 0)
            ++ bytesOf 2 (s.notifySet.length - returned.length) ++ (returned.map member).flatten) .nothing)).port
      ∧ (∀ h ∈ returned, (member h).length = 11)
      ∧ ((∀ h ∈ returned, (s.slot h).failsCheck = false) → t.outputs = s.outputs ∧ t.lists = s.lists)
      ∧ (∀ a h inverted e r, s.channel a = ⟨[.hand h], inverted⟩ → h ∈ returned → s.slot h = .live e true r →
        ∃ u, exec (.step ⟨a, []⟩) t = .next u
          ∧ u.slot h = .live e true { r with log := { r.log with notifyPending := true, missed := 0 } })

/-! ### The safe state -/

/-- R145, R146, R147: ENTER_SAFE and a STOP recognized active put the device into SAFE, giving every output its safe
hold with the held level captured where there was no hold, and set SAFE_ENTERED; in SAFE they change no hold. STOP
recognized inactive changes the recognized level alone. (Stated where the block works at the acceptance; the other pace
is an operand: log entry 13.) (That nothing changes where the event does not occur is the model's choice: log entry 2.)
-/
def Obligations.EnteringSafeHoldsEveryOutput : Prop :=
  ∀ (s : State) (tag : Byte) (samples : Nat),
    let entered (t : State) : State := { t with
      condition := .safe
      latched := t.latched ||| reasonSafeEntered
      outputs := t.outputs.map (fun x =>
        if x.safeHold then x
        else { x with safeHold := true, held := if x.faultHold then x.held else x.pin }) }
    (s.Ready tag → s.condition ≠ .safe → exec (.enterSafe ⟨frameRest 0x50#8 tag [], .prompt⟩) s =
      .next ((entered s).answers 0x50#8 tag (.ready .done [1#8, boolByte s.stopActive, 32#8, 0#8] .nothing)))
    ∧ (s.Ready tag → s.condition = .safe → exec (.enterSafe ⟨frameRest 0x50#8 tag [], .prompt⟩) s =
      .next (s.answers 0x50#8 tag
        (.ready .done [1#8, boolByte s.stopActive, byteOf s.safeHolds, 0#8] .nothing)))
    ∧ (s.phase ≠ .held → 11 ≤ samples →
      (s.stopActive = false → s.condition ≠ .safe →
        exec (.stopEvent samples) s = .next { entered s with stopActive := true })
      ∧ (s.stopActive = false → s.condition = .safe →
        exec (.stopEvent samples) s = .next { s with stopActive := true })
      ∧ exec (.stopInactive samples) s = .next { s with stopActive := false })
    ∧ (samples < 11 → exec (.stopEvent samples) s = .next s ∧ exec (.stopInactive samples) s = .next s)

/-- R149, R150: RELEASE_SAFE in SAFE is refused with STOP_ACTIVE while STOP is active; otherwise it clears the safe hold
of every output that waits for no RUNNING or HALTING axis, and the condition becomes RELEASING, or NORMAL with
SAFE_RELEASED when no hold is left. In NORMAL and RELEASING it changes nothing. (Stated where the block works at the
acceptance; the other pace is an operand: log entry 13.) -/
def Obligations.ReleaseSafeLetsOutputsGo : Prop :=
  ∀ (s : State) (tag : Byte), s.Ready tag →
    let release := exec (.releaseSafe ⟨frameRest 0x51#8 tag [], .prompt⟩) s
    let waits (x : Output) : Bool := match x.binding with
      | some a => (s.axis a).state == .running || (s.axis a).state == .halting
      | none => false
    let n := s.outputs.toList.countP (fun x => x.safeHold && waits x)
    (s.condition = .safe → s.stopActive = true → release = .next (s.answers 0x51#8 tag (bare .stopActive)))
    ∧ (s.condition = .safe → s.stopActive = false → release = .next (({ s with
        condition := if n = 0 then .normal else .releasing
        latched := if n = 0 then s.latched ||| reasonSafeReleased else s.latched
        outputs := s.outputs.map (fun x => if waits x then x else { x with safeHold := false }) }).answers 0x51#8
          tag (.ready .done [if n = 0 then 0#8 else 2#8, 0#8, byteOf n, byteOf (s.safeHolds - n)] .nothing)))
    ∧ (s.condition ≠ .safe → release = .next (s.answers 0x51#8 tag
        (.ready .done [s.condition.code, boolByte s.stopActive, byteOf s.safeHolds, 0#8] .nothing)))

/-! ### Integrity -/

/-- R158, R165, R166, R167: READ_FAULT_REPORT answers DONE with every field of the report, absent fields marked absent,
and changes nothing; CLEAR_FAULT_REPORT makes the report invalid and touches nothing else. SPOIL_CHECK of a LIVE entry
and a disturbance of a slot make its check value inconsistent and change no field; SPOIL_CHECK of any other slot answers
NO_SUCH_ENTRY. (The 00h bytes of an absent axis, handle and deviation are the model's choice, log entry 15, and so are
bits 5 to 7 of the presence byte, log entry 19.) (Stated where the block works at the acceptance; the other pace is an
operand: log entry 13.) -/
def Obligations.IntegrityRequestsAndDisturbances : Prop :=
  ∀ (s : State) (tag : Byte) (h : Fin 512),
    let spoil := exec (.spoilCheck ⟨frameRest 0x63#8 tag (bytesOf 2 h), .prompt⟩) s
    let read := exec (.readFaultReport ⟨frameRest 0x60#8 tag [], .prompt⟩) s
    let answer (payload : List Byte) : State := s.answers 0x60#8 tag (.ready .done payload .nothing)
    (s.Ready tag → s.report = none → read = .next (answer (List.replicate 15 0#8)))
    ∧ (s.Ready tag → ∀ a p rev further,
      let tail (handle : Nat) (d : Int) : List Byte :=
        bytesOf 2 handle ++ bytesOf 2 p ++ signedBytesOf 4 d ++ bytesOf 2 rev.toNat ++ [byteOf further]
      (∀ h, s.report = some ⟨.entryCheck h, a, p, rev, further⟩ →
        read = .next (answer ([1#8, 1#8, 0b10111#8, byteOf a] ++ tail h 0)))
      ∧ (s.report = some ⟨.illegalTransition, a, p, rev, further⟩ →
        read = .next (answer ([1#8, 2#8, 0b10101#8, byteOf a] ++ tail 0 0)))
      ∧ (∀ d, s.report = some ⟨.indexMismatch d, a, p, rev, further⟩ →
        read = .next (answer ([1#8, 3#8, 0b11101#8, byteOf a] ++ tail 0 d)))
      ∧ (s.report = some ⟨.countOverrun, a, p, rev, further⟩ →
        read = .next (answer ([1#8, 4#8, 0b10101#8, byteOf a] ++ tail 0 0))))
    ∧ (s.Ready tag → exec (.clearFaultReport ⟨frameRest 0x61#8 tag [], .prompt⟩) s =
        .next (({ s with report := none }).answers 0x61#8 tag (bare .done)))
    ∧ (s.ReadyAlone tag →
      (∀ e ok r, s.slot h = .live e ok r → spoil = .next ((s.setSlot h (.live e false r)).answers 0x63#8 tag
        (.ready .done (bytesOf 2 h ++ [byteOf e.axis]) .nothing)))
      ∧ ((s.slot h).lifecycle ≠ .live → spoil = .next (s.answers 0x63#8 tag (bare .noSuchEntry))))
    ∧ exec (.memoryDisturbance h) s = .next (s.setSlot h (match s.slot h with
        | .staged e _ => .staged e false
        | .live e _ r => .live e false r
        | .fenced e _ l => .fenced e false l
        | .unread e _ l => .unread e false l
        | v => v))

/-- R168, R169, R170, R176: TABLE_TEST fixes its visit set, the FREE slots and with restore the DISABLED ones, and waits
unless it is empty; each visit, while the port is EXECUTING or DRAINING, moves its slot by its outcome, counts it, and
leaves every other slot; the last visit gives the four counts. (Stated where the block works at the acceptance; the
other pace is an operand: log entry 13.) -/
def Obligations.TableTestVisitsItsSet : Prop :=
  ∀ (s : State) (tag : Byte) (restore : Bool),
    let set := handles.filter (fun h => s.slot h == .free || (restore && s.slot h == .disabled))
    let total := bytesOf 2 (s.countIn .disabled)
    (s.ReadyAlone tag →
      (set ≠ [] → exec (.tableTest ⟨frameRest 0x62#8 tag [boolByte restore], .prompt⟩) s =
        .next (s.answers 0x62#8 tag (.testing ⟨set, 0, 0, 0⟩)))
      ∧ (set = [] → exec (.tableTest ⟨frameRest 0x62#8 tag [boolByte restore], .prompt⟩) s =
        .next (s.answers 0x62#8 tag (.ready .done (List.replicate 6 0#8 ++ total) .nothing))))
    ∧ ∀ (code : Byte) (h : Nat) (rest : List Nat) (visited disabled restored : Nat) (passes : Bool),
      let run : Work := .testing ⟨h :: rest, visited, disabled, restored⟩
      s.slot h = .free ∨ s.slot h = .disabled →
      let moved := s.setSlot h (if passes then .free else .disabled)
      let disabled' := if s.slot h = .free ∧ passes = false then disabled + 1 else disabled
      let restored' := if s.slot h = .disabled ∧ passes = true then restored + 1 else restored
      let work : Work := if rest = [] then .ready .done (bytesOf 2 (visited + 1) ++ bytesOf 2 disabled'
          ++ bytesOf 2 restored' ++ bytesOf 2 (moved.countIn .disabled)) .nothing
        else .testing ⟨rest, visited + 1, disabled', restored'⟩
      (s.port.state = .executing ⟨code, tag, run⟩ → exec (.tableTestVisit passes) s =
        .next { moved with port := { s.port with state := .executing ⟨code, tag, work⟩ } })
      ∧ (s.port.state = .draining ⟨code, tag, run⟩ → exec (.tableTestVisit passes) s =
        .next { moved with port := { s.port with state := .draining ⟨code, tag, work⟩ } })

/-! ### Invariants -/

/-- The state after reset meets every invariant stated below. -/
def Obligations.ResetMeetsEveryInvariant : Prop :=
  State.reset.TableOk ∧ State.reset.EntriesOk ∧ State.reset.CountsOk ∧ State.reset.AxesOk
    ∧ State.reset.ActivityOk ∧ State.reset.ListShapesOk ∧ State.reset.ListsOk ∧ State.reset.BindingsOk
    ∧ State.reset.SafeOk ∧ State.reset.PortOk

/-- R1: every step keeps the slot table in its canonical form, handles 0 to 511 each once. -/
def Obligations.StepsKeepTheTableCanonical : Prop :=
  ∀ s t : State, s.TableOk → step s = .next t → t.TableOk

/-- R11, R12, R13, R130: every step keeps the fields of every slot in agreement. -/
def Obligations.StepsKeepEntriesSound : Prop :=
  ∀ s t : State, s.EntriesOk → step s = .next t → t.EntriesOk

/-- R88, R160: every step keeps the window and pulse counts of every output equal to the numbers of its ACTIVE entries,
with those whose fence has stopped before it reaches the output. -/
def Obligations.StepsKeepTheOutputCounts : Prop :=
  ∀ s t : State, s.CountsOk → step s = .next t → t.CountsOk

/-- R27, R29, R49, R50: every step keeps every axis record in its ranges, its backlog within 1023 and 0 outside RUNNING
and HALTING, and its reference as its source and state ask. -/
def Obligations.StepsKeepAxisRecordsSound : Prop :=
  ∀ s t : State, s.AxesOk → step s = .next t → t.AxesOk

/-- R29: no step leaves an ACTIVE entry on an UNREFERENCED axis, a silent end apart that waits for its channel or that
the channel has still to come to (log entries 4, 13). -/
def Obligations.StepsKeepUnreferencedAxesIdle : Prop :=
  ∀ s t : State, s.ActivityOk → step s = .next t → t.ActivityOk

/-- R104, R120: every step keeps each list at 32 items at most, and closed only while its axis is RUNNING or HALTING, or
while its channel has stopped within the list's application (log entry 13). -/
def Obligations.StepsKeepListShapes : Prop :=
  ∀ s t : State, s.ListShapesOk → step s = .next t → t.ListShapesOk

/-- R105: every step keeps the pending lists in agreement with the table and the bindings. -/
def Obligations.StepsKeepListsInAgreement : Prop :=
  ∀ s t : State, s.ListsOk → step s = .next t → t.ListsOk

/-- R7, R86, R88, R99: every step keeps every entry in service, and every fence that has stopped before its output, on
an output that is bound, of the drive type its kind asks for; an entry's is bound to the entry's axis. So an output with
binding none, and one of drive type TOGGLE, has both counts 0 where the counts are as StepsKeepTheOutputCounts has them.
(That a CONFIG_OUTPUT takes the claims of fences that wait for its output is the model's choice: log entry 13.) -/
def Obligations.StepsKeepEntriesOnTheirAxis : Prop :=
  (∀ s t : State, s.BindingsOk → step s = .next t → t.BindingsOk)
    ∧ ∀ s : State, s.BindingsOk → s.CountsOk → ∀ o, (s.output o).binding = none ∨ (s.output o).drive = .toggle →
      (s.output o).windowCount = 0 ∧ (s.output o).pulseCount = 0

/-- R144, R145, R156, R185: every step keeps the safe holds in agreement with the device condition, STOP recognized
active in SAFE alone, and the part SAFE with an IDLE port while RST is asserted. -/
def Obligations.StepsKeepTheSafeHolds : Prop :=
  ∀ s t : State, s.SafeOk → step s = .next t → t.SafeOk

/-- R172: every step keeps the port record's slot and last tag as its state asks, and no level reason latched (R137).
(That no stop point stands between commands is the model's own field: log entry 13.) -/
def Obligations.StepsKeepThePortRecord : Prop :=
  ∀ s t : State, s.PortOk → step s = .next t → t.PortOk
end

