-- ==== Sys2Proof/Laws/State.lean ====
section
/-! SUPPORT. Every field of State after every update, by rfl, and the records read back after an update. -/

namespace Sys2Proof.Machine

/-! ### setSlot -/

@[simp] theorem State.setSlot_phase (s : State) (h : Nat) (v : Slot) : (s.setSlot h v).phase = s.phase := rfl
@[simp] theorem State.setSlot_port (s : State) (h : Nat) (v : Slot) : (s.setSlot h v).port = s.port := rfl
@[simp] theorem State.setSlot_transaction (s : State) (h : Nat) (v : Slot) : (s.setSlot h v).transaction = s.transaction := rfl
@[simp] theorem State.setSlot_condition (s : State) (h : Nat) (v : Slot) : (s.setSlot h v).condition = s.condition := rfl
@[simp] theorem State.setSlot_stopActive (s : State) (h : Nat) (v : Slot) : (s.setSlot h v).stopActive = s.stopActive := rfl
@[simp] theorem State.setSlot_latched (s : State) (h : Nat) (v : Slot) : (s.setSlot h v).latched = s.latched := rfl
@[simp] theorem State.setSlot_mask (s : State) (h : Nat) (v : Slot) : (s.setSlot h v).mask = s.mask := rfl
@[simp] theorem State.setSlot_table (s : State) (h : Nat) (v : Slot) : (s.setSlot h v).table = Table.set s.table h v := rfl
@[simp] theorem State.setSlot_axes (s : State) (h : Nat) (v : Slot) : (s.setSlot h v).axes = s.axes := rfl
@[simp] theorem State.setSlot_lists (s : State) (h : Nat) (v : Slot) : (s.setSlot h v).lists = s.lists := rfl
@[simp] theorem State.setSlot_outputs (s : State) (h : Nat) (v : Slot) : (s.setSlot h v).outputs = s.outputs := rfl
@[simp] theorem State.setSlot_report (s : State) (h : Nat) (v : Slot) : (s.setSlot h v).report = s.report := rfl
@[simp] theorem State.setSlot_channels (s : State) (h : Nat) (v : Slot) : (s.setSlot h v).channels = s.channels := rfl
@[simp] theorem State.setSlot_stops (s : State) (h : Nat) (v : Slot) : (s.setSlot h v).stops = s.stops := rfl
@[simp] theorem State.setSlot_pending (s : State) (h : Nat) (v : Slot) : (s.setSlot h v).pending = s.pending := rfl
@[simp] theorem State.setSlot_axis (s : State) (h : Nat) (v : Slot) (b : AxisId) : (s.setSlot h v).axis b = s.axis b := rfl
@[simp] theorem State.setSlot_output (s : State) (h : Nat) (v : Slot) (p : OutId) : (s.setSlot h v).output p = s.output p := rfl
@[simp] theorem State.setSlot_list (s : State) (h : Nat) (v : Slot) (b : AxisId) : (s.setSlot h v).list b = s.list b := rfl
@[simp] theorem State.setSlot_channel (s : State) (h : Nat) (v : Slot) (b : AxisId) : (s.setSlot h v).channel b = s.channel b := rfl

/-! ### setAxis -/

@[simp] theorem State.setAxis_phase (s : State) (a : AxisId) (x : Axis) : (s.setAxis a x).phase = s.phase := rfl
@[simp] theorem State.setAxis_port (s : State) (a : AxisId) (x : Axis) : (s.setAxis a x).port = s.port := rfl
@[simp] theorem State.setAxis_transaction (s : State) (a : AxisId) (x : Axis) : (s.setAxis a x).transaction = s.transaction := rfl
@[simp] theorem State.setAxis_condition (s : State) (a : AxisId) (x : Axis) : (s.setAxis a x).condition = s.condition := rfl
@[simp] theorem State.setAxis_stopActive (s : State) (a : AxisId) (x : Axis) : (s.setAxis a x).stopActive = s.stopActive := rfl
@[simp] theorem State.setAxis_latched (s : State) (a : AxisId) (x : Axis) : (s.setAxis a x).latched = s.latched := rfl
@[simp] theorem State.setAxis_mask (s : State) (a : AxisId) (x : Axis) : (s.setAxis a x).mask = s.mask := rfl
@[simp] theorem State.setAxis_table (s : State) (a : AxisId) (x : Axis) : (s.setAxis a x).table = s.table := rfl
@[simp] theorem State.setAxis_axes (s : State) (a : AxisId) (x : Axis) : (s.setAxis a x).axes = s.axes.set a x := rfl
@[simp] theorem State.setAxis_lists (s : State) (a : AxisId) (x : Axis) : (s.setAxis a x).lists = s.lists := rfl
@[simp] theorem State.setAxis_outputs (s : State) (a : AxisId) (x : Axis) : (s.setAxis a x).outputs = s.outputs := rfl
@[simp] theorem State.setAxis_report (s : State) (a : AxisId) (x : Axis) : (s.setAxis a x).report = s.report := rfl
@[simp] theorem State.setAxis_channels (s : State) (a : AxisId) (x : Axis) : (s.setAxis a x).channels = s.channels := rfl
@[simp] theorem State.setAxis_stops (s : State) (a : AxisId) (x : Axis) : (s.setAxis a x).stops = s.stops := rfl
@[simp] theorem State.setAxis_pending (s : State) (a : AxisId) (x : Axis) : (s.setAxis a x).pending = s.pending := rfl
@[simp] theorem State.setAxis_slot (s : State) (a : AxisId) (x : Axis) (k : Nat) : (s.setAxis a x).slot k = s.slot k := rfl
@[simp] theorem State.setAxis_output (s : State) (a : AxisId) (x : Axis) (p : OutId) : (s.setAxis a x).output p = s.output p := rfl
@[simp] theorem State.setAxis_list (s : State) (a : AxisId) (x : Axis) (b : AxisId) : (s.setAxis a x).list b = s.list b := rfl
@[simp] theorem State.setAxis_channel (s : State) (a : AxisId) (x : Axis) (b : AxisId) : (s.setAxis a x).channel b = s.channel b := rfl

/-! ### setOutput -/

@[simp] theorem State.setOutput_phase (s : State) (o : OutId) (x : Output) : (s.setOutput o x).phase = s.phase := rfl
@[simp] theorem State.setOutput_port (s : State) (o : OutId) (x : Output) : (s.setOutput o x).port = s.port := rfl
@[simp] theorem State.setOutput_transaction (s : State) (o : OutId) (x : Output) : (s.setOutput o x).transaction = s.transaction := rfl
@[simp] theorem State.setOutput_condition (s : State) (o : OutId) (x : Output) : (s.setOutput o x).condition = s.condition := rfl
@[simp] theorem State.setOutput_stopActive (s : State) (o : OutId) (x : Output) : (s.setOutput o x).stopActive = s.stopActive := rfl
@[simp] theorem State.setOutput_latched (s : State) (o : OutId) (x : Output) : (s.setOutput o x).latched = s.latched := rfl
@[simp] theorem State.setOutput_mask (s : State) (o : OutId) (x : Output) : (s.setOutput o x).mask = s.mask := rfl
@[simp] theorem State.setOutput_table (s : State) (o : OutId) (x : Output) : (s.setOutput o x).table = s.table := rfl
@[simp] theorem State.setOutput_axes (s : State) (o : OutId) (x : Output) : (s.setOutput o x).axes = s.axes := rfl
@[simp] theorem State.setOutput_lists (s : State) (o : OutId) (x : Output) : (s.setOutput o x).lists = s.lists := rfl
@[simp] theorem State.setOutput_outputs (s : State) (o : OutId) (x : Output) : (s.setOutput o x).outputs = s.outputs.set o x := rfl
@[simp] theorem State.setOutput_report (s : State) (o : OutId) (x : Output) : (s.setOutput o x).report = s.report := rfl
@[simp] theorem State.setOutput_channels (s : State) (o : OutId) (x : Output) : (s.setOutput o x).channels = s.channels := rfl
@[simp] theorem State.setOutput_stops (s : State) (o : OutId) (x : Output) : (s.setOutput o x).stops = s.stops := rfl
@[simp] theorem State.setOutput_pending (s : State) (o : OutId) (x : Output) : (s.setOutput o x).pending = s.pending := rfl
@[simp] theorem State.setOutput_slot (s : State) (o : OutId) (x : Output) (k : Nat) : (s.setOutput o x).slot k = s.slot k := rfl
@[simp] theorem State.setOutput_axis (s : State) (o : OutId) (x : Output) (b : AxisId) : (s.setOutput o x).axis b = s.axis b := rfl
@[simp] theorem State.setOutput_list (s : State) (o : OutId) (x : Output) (b : AxisId) : (s.setOutput o x).list b = s.list b := rfl
@[simp] theorem State.setOutput_channel (s : State) (o : OutId) (x : Output) (b : AxisId) : (s.setOutput o x).channel b = s.channel b := rfl

/-! ### setList -/

@[simp] theorem State.setList_phase (s : State) (a : AxisId) (x : PendingList) : (s.setList a x).phase = s.phase := rfl
@[simp] theorem State.setList_port (s : State) (a : AxisId) (x : PendingList) : (s.setList a x).port = s.port := rfl
@[simp] theorem State.setList_transaction (s : State) (a : AxisId) (x : PendingList) : (s.setList a x).transaction = s.transaction := rfl
@[simp] theorem State.setList_condition (s : State) (a : AxisId) (x : PendingList) : (s.setList a x).condition = s.condition := rfl
@[simp] theorem State.setList_stopActive (s : State) (a : AxisId) (x : PendingList) : (s.setList a x).stopActive = s.stopActive := rfl
@[simp] theorem State.setList_latched (s : State) (a : AxisId) (x : PendingList) : (s.setList a x).latched = s.latched := rfl
@[simp] theorem State.setList_mask (s : State) (a : AxisId) (x : PendingList) : (s.setList a x).mask = s.mask := rfl
@[simp] theorem State.setList_table (s : State) (a : AxisId) (x : PendingList) : (s.setList a x).table = s.table := rfl
@[simp] theorem State.setList_axes (s : State) (a : AxisId) (x : PendingList) : (s.setList a x).axes = s.axes := rfl
@[simp] theorem State.setList_lists (s : State) (a : AxisId) (x : PendingList) : (s.setList a x).lists = s.lists.set a x := rfl
@[simp] theorem State.setList_outputs (s : State) (a : AxisId) (x : PendingList) : (s.setList a x).outputs = s.outputs := rfl
@[simp] theorem State.setList_report (s : State) (a : AxisId) (x : PendingList) : (s.setList a x).report = s.report := rfl
@[simp] theorem State.setList_channels (s : State) (a : AxisId) (x : PendingList) : (s.setList a x).channels = s.channels := rfl
@[simp] theorem State.setList_stops (s : State) (a : AxisId) (x : PendingList) : (s.setList a x).stops = s.stops := rfl
@[simp] theorem State.setList_pending (s : State) (a : AxisId) (x : PendingList) : (s.setList a x).pending = s.pending := rfl
@[simp] theorem State.setList_slot (s : State) (a : AxisId) (x : PendingList) (k : Nat) : (s.setList a x).slot k = s.slot k := rfl
@[simp] theorem State.setList_axis (s : State) (a : AxisId) (x : PendingList) (b : AxisId) : (s.setList a x).axis b = s.axis b := rfl
@[simp] theorem State.setList_output (s : State) (a : AxisId) (x : PendingList) (p : OutId) : (s.setList a x).output p = s.output p := rfl
@[simp] theorem State.setList_channel (s : State) (a : AxisId) (x : PendingList) (b : AxisId) : (s.setList a x).channel b = s.channel b := rfl

/-! ### setChannel -/

@[simp] theorem State.setChannel_phase (s : State) (a : AxisId) (c : Channel) : (s.setChannel a c).phase = s.phase := rfl
@[simp] theorem State.setChannel_port (s : State) (a : AxisId) (c : Channel) : (s.setChannel a c).port = s.port := rfl
@[simp] theorem State.setChannel_transaction (s : State) (a : AxisId) (c : Channel) : (s.setChannel a c).transaction = s.transaction := rfl
@[simp] theorem State.setChannel_condition (s : State) (a : AxisId) (c : Channel) : (s.setChannel a c).condition = s.condition := rfl
@[simp] theorem State.setChannel_stopActive (s : State) (a : AxisId) (c : Channel) : (s.setChannel a c).stopActive = s.stopActive := rfl
@[simp] theorem State.setChannel_latched (s : State) (a : AxisId) (c : Channel) : (s.setChannel a c).latched = s.latched := rfl
@[simp] theorem State.setChannel_mask (s : State) (a : AxisId) (c : Channel) : (s.setChannel a c).mask = s.mask := rfl
@[simp] theorem State.setChannel_table (s : State) (a : AxisId) (c : Channel) : (s.setChannel a c).table = s.table := rfl
@[simp] theorem State.setChannel_axes (s : State) (a : AxisId) (c : Channel) : (s.setChannel a c).axes = s.axes := rfl
@[simp] theorem State.setChannel_lists (s : State) (a : AxisId) (c : Channel) : (s.setChannel a c).lists = s.lists := rfl
@[simp] theorem State.setChannel_outputs (s : State) (a : AxisId) (c : Channel) : (s.setChannel a c).outputs = s.outputs := rfl
@[simp] theorem State.setChannel_report (s : State) (a : AxisId) (c : Channel) : (s.setChannel a c).report = s.report := rfl
@[simp] theorem State.setChannel_channels (s : State) (a : AxisId) (c : Channel) : (s.setChannel a c).channels = s.channels.set a c := rfl
@[simp] theorem State.setChannel_stops (s : State) (a : AxisId) (c : Channel) : (s.setChannel a c).stops = s.stops := rfl
@[simp] theorem State.setChannel_pending (s : State) (a : AxisId) (c : Channel) : (s.setChannel a c).pending = s.pending := rfl
@[simp] theorem State.setChannel_slot (s : State) (a : AxisId) (c : Channel) (k : Nat) : (s.setChannel a c).slot k = s.slot k := rfl
@[simp] theorem State.setChannel_axis (s : State) (a : AxisId) (c : Channel) (b : AxisId) : (s.setChannel a c).axis b = s.axis b := rfl
@[simp] theorem State.setChannel_output (s : State) (a : AxisId) (c : Channel) (p : OutId) : (s.setChannel a c).output p = s.output p := rfl
@[simp] theorem State.setChannel_list (s : State) (a : AxisId) (c : Channel) (b : AxisId) : (s.setChannel a c).list b = s.list b := rfl

/-! ### latch -/

@[simp] theorem State.latch_phase (s : State) (r : ReasonSet) : (s.latch r).phase = s.phase := rfl
@[simp] theorem State.latch_port (s : State) (r : ReasonSet) : (s.latch r).port = s.port := rfl
@[simp] theorem State.latch_transaction (s : State) (r : ReasonSet) : (s.latch r).transaction = s.transaction := rfl
@[simp] theorem State.latch_condition (s : State) (r : ReasonSet) : (s.latch r).condition = s.condition := rfl
@[simp] theorem State.latch_stopActive (s : State) (r : ReasonSet) : (s.latch r).stopActive = s.stopActive := rfl
@[simp] theorem State.latch_latched (s : State) (r : ReasonSet) : (s.latch r).latched = s.latched ||| r := rfl
@[simp] theorem State.latch_mask (s : State) (r : ReasonSet) : (s.latch r).mask = s.mask := rfl
@[simp] theorem State.latch_table (s : State) (r : ReasonSet) : (s.latch r).table = s.table := rfl
@[simp] theorem State.latch_axes (s : State) (r : ReasonSet) : (s.latch r).axes = s.axes := rfl
@[simp] theorem State.latch_lists (s : State) (r : ReasonSet) : (s.latch r).lists = s.lists := rfl
@[simp] theorem State.latch_outputs (s : State) (r : ReasonSet) : (s.latch r).outputs = s.outputs := rfl
@[simp] theorem State.latch_report (s : State) (r : ReasonSet) : (s.latch r).report = s.report := rfl
@[simp] theorem State.latch_channels (s : State) (r : ReasonSet) : (s.latch r).channels = s.channels := rfl
@[simp] theorem State.latch_stops (s : State) (r : ReasonSet) : (s.latch r).stops = s.stops := rfl
@[simp] theorem State.latch_pending (s : State) (r : ReasonSet) : (s.latch r).pending = s.pending := rfl
@[simp] theorem State.latch_slot (s : State) (r : ReasonSet) (k : Nat) : (s.latch r).slot k = s.slot k := rfl
@[simp] theorem State.latch_axis (s : State) (r : ReasonSet) (b : AxisId) : (s.latch r).axis b = s.axis b := rfl
@[simp] theorem State.latch_output (s : State) (r : ReasonSet) (p : OutId) : (s.latch r).output p = s.output p := rfl
@[simp] theorem State.latch_list (s : State) (r : ReasonSet) (b : AxisId) : (s.latch r).list b = s.list b := rfl
@[simp] theorem State.latch_channel (s : State) (r : ReasonSet) (b : AxisId) : (s.latch r).channel b = s.channel b := rfl

/-! ### endTransaction -/

@[simp] theorem State.endTransaction_phase (s : State) : (s.endTransaction).phase = s.phase := rfl
@[simp] theorem State.endTransaction_port (s : State) : (s.endTransaction).port = s.port := rfl
@[simp] theorem State.endTransaction_transaction (s : State) : (s.endTransaction).transaction = Transaction.closed := rfl
@[simp] theorem State.endTransaction_condition (s : State) : (s.endTransaction).condition = s.condition := rfl
@[simp] theorem State.endTransaction_stopActive (s : State) : (s.endTransaction).stopActive = s.stopActive := rfl
@[simp] theorem State.endTransaction_latched (s : State) : (s.endTransaction).latched = s.latched := rfl
@[simp] theorem State.endTransaction_mask (s : State) : (s.endTransaction).mask = s.mask := rfl
@[simp] theorem State.endTransaction_table (s : State) : (s.endTransaction).table = s.table := rfl
@[simp] theorem State.endTransaction_axes (s : State) : (s.endTransaction).axes = s.axes := rfl
@[simp] theorem State.endTransaction_lists (s : State) : (s.endTransaction).lists = s.lists := rfl
@[simp] theorem State.endTransaction_outputs (s : State) : (s.endTransaction).outputs = s.outputs := rfl
@[simp] theorem State.endTransaction_report (s : State) : (s.endTransaction).report = s.report := rfl
@[simp] theorem State.endTransaction_channels (s : State) : (s.endTransaction).channels = s.channels := rfl
@[simp] theorem State.endTransaction_stops (s : State) : (s.endTransaction).stops = s.stops := rfl
@[simp] theorem State.endTransaction_pending (s : State) : (s.endTransaction).pending = s.pending := rfl
@[simp] theorem State.endTransaction_slot (s : State) (k : Nat) : (s.endTransaction).slot k = s.slot k := rfl
@[simp] theorem State.endTransaction_axis (s : State) (b : AxisId) : (s.endTransaction).axis b = s.axis b := rfl
@[simp] theorem State.endTransaction_output (s : State) (p : OutId) : (s.endTransaction).output p = s.output p := rfl
@[simp] theorem State.endTransaction_list (s : State) (b : AxisId) : (s.endTransaction).list b = s.list b := rfl
@[simp] theorem State.endTransaction_channel (s : State) (b : AxisId) : (s.endTransaction).channel b = s.channel b := rfl

/-! ### accept -/

@[simp] theorem State.accept_phase (s : State) (code tag : Byte) (w : Work) : (s.accept code tag w).phase = s.phase := rfl
@[simp] theorem State.accept_port (s : State) (code tag : Byte) (w : Work) : (s.accept code tag w).port = ⟨.executing ⟨code, tag, w⟩, none, some tag, ⟨false, false, false⟩⟩ := rfl
@[simp] theorem State.accept_transaction (s : State) (code tag : Byte) (w : Work) : (s.accept code tag w).transaction = s.transaction := rfl
@[simp] theorem State.accept_condition (s : State) (code tag : Byte) (w : Work) : (s.accept code tag w).condition = s.condition := rfl
@[simp] theorem State.accept_stopActive (s : State) (code tag : Byte) (w : Work) : (s.accept code tag w).stopActive = s.stopActive := rfl
@[simp] theorem State.accept_latched (s : State) (code tag : Byte) (w : Work) : (s.accept code tag w).latched = s.latched := rfl
@[simp] theorem State.accept_mask (s : State) (code tag : Byte) (w : Work) : (s.accept code tag w).mask = s.mask := rfl
@[simp] theorem State.accept_table (s : State) (code tag : Byte) (w : Work) : (s.accept code tag w).table = s.table := rfl
@[simp] theorem State.accept_axes (s : State) (code tag : Byte) (w : Work) : (s.accept code tag w).axes = s.axes := rfl
@[simp] theorem State.accept_lists (s : State) (code tag : Byte) (w : Work) : (s.accept code tag w).lists = s.lists := rfl
@[simp] theorem State.accept_outputs (s : State) (code tag : Byte) (w : Work) : (s.accept code tag w).outputs = s.outputs := rfl
@[simp] theorem State.accept_report (s : State) (code tag : Byte) (w : Work) : (s.accept code tag w).report = s.report := rfl
@[simp] theorem State.accept_channels (s : State) (code tag : Byte) (w : Work) : (s.accept code tag w).channels = s.channels := rfl
@[simp] theorem State.accept_stops (s : State) (code tag : Byte) (w : Work) : (s.accept code tag w).stops = s.stops := rfl
@[simp] theorem State.accept_pending (s : State) (code tag : Byte) (w : Work) : (s.accept code tag w).pending = s.pending := rfl
@[simp] theorem State.accept_slot (s : State) (code tag : Byte) (w : Work) (k : Nat) : (s.accept code tag w).slot k = s.slot k := rfl
@[simp] theorem State.accept_axis (s : State) (code tag : Byte) (w : Work) (b : AxisId) : (s.accept code tag w).axis b = s.axis b := rfl
@[simp] theorem State.accept_output (s : State) (code tag : Byte) (w : Work) (p : OutId) : (s.accept code tag w).output p = s.output p := rfl
@[simp] theorem State.accept_list (s : State) (code tag : Byte) (w : Work) (b : AxisId) : (s.accept code tag w).list b = s.list b := rfl
@[simp] theorem State.accept_channel (s : State) (code tag : Byte) (w : Work) (b : AxisId) : (s.accept code tag w).channel b = s.channel b := rfl

/-! ### answers -/

@[simp] theorem State.answers_phase (s : State) (code tag : Byte) (w : Work) : (s.answers code tag w).phase = s.phase := rfl
@[simp] theorem State.answers_port (s : State) (code tag : Byte) (w : Work) : (s.answers code tag w).port = ⟨.executing ⟨code, tag, w⟩, none, some tag, ⟨false, false, false⟩⟩ := rfl
@[simp] theorem State.answers_transaction (s : State) (code tag : Byte) (w : Work) : (s.answers code tag w).transaction = Transaction.closed := rfl
@[simp] theorem State.answers_condition (s : State) (code tag : Byte) (w : Work) : (s.answers code tag w).condition = s.condition := rfl
@[simp] theorem State.answers_stopActive (s : State) (code tag : Byte) (w : Work) : (s.answers code tag w).stopActive = s.stopActive := rfl
@[simp] theorem State.answers_latched (s : State) (code tag : Byte) (w : Work) : (s.answers code tag w).latched = s.latched := rfl
@[simp] theorem State.answers_mask (s : State) (code tag : Byte) (w : Work) : (s.answers code tag w).mask = s.mask := rfl
@[simp] theorem State.answers_table (s : State) (code tag : Byte) (w : Work) : (s.answers code tag w).table = s.table := rfl
@[simp] theorem State.answers_axes (s : State) (code tag : Byte) (w : Work) : (s.answers code tag w).axes = s.axes := rfl
@[simp] theorem State.answers_lists (s : State) (code tag : Byte) (w : Work) : (s.answers code tag w).lists = s.lists := rfl
@[simp] theorem State.answers_outputs (s : State) (code tag : Byte) (w : Work) : (s.answers code tag w).outputs = s.outputs := rfl
@[simp] theorem State.answers_report (s : State) (code tag : Byte) (w : Work) : (s.answers code tag w).report = s.report := rfl
@[simp] theorem State.answers_channels (s : State) (code tag : Byte) (w : Work) : (s.answers code tag w).channels = s.channels := rfl
@[simp] theorem State.answers_stops (s : State) (code tag : Byte) (w : Work) : (s.answers code tag w).stops = s.stops := rfl
@[simp] theorem State.answers_pending (s : State) (code tag : Byte) (w : Work) : (s.answers code tag w).pending = s.pending := rfl
@[simp] theorem State.answers_slot (s : State) (code tag : Byte) (w : Work) (k : Nat) : (s.answers code tag w).slot k = s.slot k := rfl
@[simp] theorem State.answers_axis (s : State) (code tag : Byte) (w : Work) (b : AxisId) : (s.answers code tag w).axis b = s.axis b := rfl
@[simp] theorem State.answers_output (s : State) (code tag : Byte) (w : Work) (p : OutId) : (s.answers code tag w).output p = s.output p := rfl
@[simp] theorem State.answers_list (s : State) (code tag : Byte) (w : Work) (b : AxisId) : (s.answers code tag w).list b = s.list b := rfl
@[simp] theorem State.answers_channel (s : State) (code tag : Byte) (w : Work) (b : AxisId) : (s.answers code tag w).channel b = s.channel b := rfl

/-! ### Records read back -/

theorem State.setAxis_axis (s : State) (a b : AxisId) (x : Axis) :
    (s.setAxis a x).axis b = if a = b then x else s.axis b := by
  simp [State.axis, State.setAxis, Vector.getElem_set, Fin.ext_iff]

@[simp] theorem State.setAxis_axis_self (s : State) (a : AxisId) (x : Axis) : (s.setAxis a x).axis a = x := by
  simp [State.setAxis_axis]

theorem State.setOutput_output (s : State) (o p : OutId) (x : Output) :
    (s.setOutput o x).output p = if o = p then x else s.output p := by
  simp [State.output, State.setOutput, Vector.getElem_set, Fin.ext_iff]

@[simp] theorem State.setOutput_output_self (s : State) (o : OutId) (x : Output) :
    (s.setOutput o x).output o = x := by
  simp [State.setOutput_output]

theorem State.setList_list (s : State) (a b : AxisId) (x : PendingList) :
    (s.setList a x).list b = if a = b then x else s.list b := by
  simp [State.list, State.setList, Vector.getElem_set, Fin.ext_iff]

@[simp] theorem State.setList_list_self (s : State) (a : AxisId) (x : PendingList) :
    (s.setList a x).list a = x := by
  simp [State.setList_list]

theorem State.setChannel_channel (s : State) (a b : AxisId) (c : Channel) :
    (s.setChannel a c).channel b = if a = b then c else s.channel b := by
  simp [State.channel, State.setChannel, Vector.getElem_set, Fin.ext_iff]

@[simp] theorem State.setChannel_channel_self (s : State) (a : AxisId) (c : Channel) :
    (s.setChannel a c).channel a = c := by
  simp [State.setChannel_channel]

@[simp] theorem State.setChannel_setChannel (s : State) (a : AxisId) (c d : Channel) :
    (s.setChannel a c).setChannel a d = s.setChannel a d := by
  simp [State.setChannel, Vector.set_set]

@[simp] theorem State.setAxis_setAxis (s : State) (a : AxisId) (x y : Axis) :
    (s.setAxis a x).setAxis a y = s.setAxis a y := by
  simp [State.setAxis, Vector.set_set]

@[simp] theorem State.setOutput_setOutput (s : State) (o : OutId) (x y : Output) :
    (s.setOutput o x).setOutput o y = s.setOutput o y := by
  simp [State.setOutput, Vector.set_set]

@[simp] theorem State.setList_setList (s : State) (a : AxisId) (x y : PendingList) :
    (s.setList a x).setList a y = s.setList a y := by
  simp [State.setList, Vector.set_set]

@[simp] theorem State.setAxis_self (s : State) (a : AxisId) : s.setAxis a (s.axis a) = s := by
  simp [State.setAxis, State.axis]

@[simp] theorem State.setChannel_self (s : State) (a : AxisId) : s.setChannel a (s.channel a) = s := by
  simp [State.setChannel, State.channel]

@[simp] theorem State.setOutput_self (s : State) (o : OutId) : s.setOutput o (s.output o) = s := by
  simp [State.setOutput, State.output]

/-- An accepted request whose transaction is over is an answered one. -/
theorem State.accept_endTransaction (s : State) (code tag : Byte) (w : Work) :
    s.endTransaction.accept code tag w = s.answers code tag w := rfl

end Sys2Proof.Machine
end

