-- ==== Sys2Proof/Laws/Table.lean ====
section
/-! SUPPORT. The slot table: reading back a write, and the canonical form kept by every write of a handle below 512. -/

namespace Sys2Proof.Machine

theorem Table.get_insert (t : List (Nat × Slot)) (h k : Nat) (v : Slot) :
    Table.get (Table.insert t h v) k = if h = k then v else Table.get t k := by
  induction t with
  | nil => simp [Table.insert, Table.get]
  | cons c rest ih =>
    obtain ⟨j, w⟩ := c
    simp only [Table.insert]
    split
    · simp [Table.get]
    · split
      · next h1 h2 => subst h2; simp only [Table.get]; split <;> simp_all
      · next h1 h2 =>
        simp only [Table.get, ih]
        split
        · next hj => subst hj; simp [h2]
        · rfl

theorem Table.get_eq_free_of_lt (t : List (Nat × Slot)) (k : Nat) (above : ∀ c ∈ t, k < c.1) :
    Table.get t k = .free := by
  induction t with
  | nil => rfl
  | cons c rest ih =>
    obtain ⟨j, w⟩ := c
    have hj : k < j := above (j, w) (by simp)
    simp only [Table.get, if_neg (show ¬ j = k by omega)]
    exact ih (fun c hc => above c (by simp [hc]))

theorem Table.get_erase (t : List (Nat × Slot)) (h k : Nat) :
    Table.get (Table.erase t h) k = if h = k then .free else Table.get t k := by
  induction t with
  | nil => simp [Table.erase, Table.get]
  | cons c rest ih =>
    obtain ⟨j, w⟩ := c
    simp only [Table.erase, List.filter_cons, bne_iff_ne, ne_eq] at ih ⊢
    by_cases hj : j = h
    · subst hj
      simp only [not_true_eq_false, if_false, ih, Table.get]
      split <;> rfl
    · simp only [hj, not_false_eq_true, if_true, Table.get, ih]
      by_cases hk : j = k
      · subst hk; simp [Ne.symm hj]
      · simp [hk]

/-- The slot of a handle after a write. -/
theorem Table.get_set (t : List (Nat × Slot)) (h k : Nat) (v : Slot) :
    Table.get (Table.set t h v) k = if h = k then v else Table.get t k := by
  unfold Table.set
  split
  · next hv => subst hv; exact Table.get_erase t h k
  · exact Table.get_insert t h k v

theorem Table.insert_mem (t : List (Nat × Slot)) (h : Nat) (v : Slot) (c : Nat × Slot)
    (hc : c ∈ Table.insert t h v) : c = (h, v) ∨ c ∈ t := by
  induction t with
  | nil => simp [Table.insert] at hc; exact .inl hc
  | cons d rest ih =>
    obtain ⟨j, w⟩ := d
    simp only [Table.insert] at hc
    split at hc
    · simp only [List.mem_cons] at hc ⊢; tauto
    · split at hc
      · simp only [List.mem_cons] at hc ⊢; tauto
      · simp only [List.mem_cons] at hc ⊢
        rcases hc with hc | hc
        · exact .inr (.inl hc)
        · rcases ih hc with h1 | h1
          · exact .inl h1
          · exact .inr (.inr h1)

theorem Table.insert_sorted (t : List (Nat × Slot)) (h : Nat) (v : Slot)
    (sorted : t.Pairwise (fun x y => x.1 < y.1)) :
    (Table.insert t h v).Pairwise (fun x y => x.1 < y.1) := by
  induction t with
  | nil => simp [Table.insert]
  | cons d rest ih =>
    obtain ⟨j, w⟩ := d
    have sorted' := sorted
    rw [List.pairwise_cons] at sorted
    simp only [Table.insert]
    split
    · next hj =>
      rw [List.pairwise_cons]
      refine ⟨fun c hc => ?_, sorted'⟩
      simp only [List.mem_cons] at hc
      rcases hc with rfl | hc
      · exact hj
      · exact lt_trans hj (sorted.1 c hc)
    · split
      · next _ hj =>
        subst hj
        rw [List.pairwise_cons]
        exact ⟨fun c hc => sorted.1 c hc, sorted.2⟩
      · next h1 h2 =>
        rw [List.pairwise_cons]
        refine ⟨fun c hc => ?_, ih sorted.2⟩
        rcases Table.insert_mem rest h v c hc with rfl | hc
        · simp only; omega
        · exact sorted.1 c hc

/-- A write of a handle below 512 keeps the canonical form. -/
theorem Table.set_wf (t : List (Nat × Slot)) (h : Nat) (v : Slot) (below : h < Config.slotCount)
    (wf : Table.wf t = true) : Table.wf (Table.set t h v) = true := by
  simp only [Table.wf, Bool.and_eq_true, decide_eq_true_eq, List.all_eq_true, bne_iff_ne, ne_eq] at wf ⊢
  unfold Table.set
  split
  · refine ⟨List.Pairwise.filter _ wf.1, fun c hc => wf.2 c (List.mem_filter.mp hc).1⟩
  · next hv =>
    refine ⟨Table.insert_sorted t h v wf.1, fun c hc => ?_⟩
    rcases Table.insert_mem t h v c hc with rfl | hc
    · exact ⟨below, hv⟩
    · exact wf.2 c hc

/-- A write of FREE to any handle keeps the canonical form. -/
theorem Table.set_free_wf (t : List (Nat × Slot)) (h : Nat) (wf : Table.wf t = true) :
    Table.wf (Table.set t h .free) = true := by
  simp only [Table.wf, Bool.and_eq_true, decide_eq_true_eq, List.all_eq_true, bne_iff_ne, ne_eq] at wf ⊢
  simp only [Table.set, if_true]
  exact ⟨List.Pairwise.filter _ wf.1, fun c hc => wf.2 c (List.mem_filter.mp hc).1⟩

theorem Table.wf_sorted {t : List (Nat × Slot)} (wf : Table.wf t = true) :
    t.Pairwise (fun x y => x.1 < y.1) := by
  simp only [Table.wf, Bool.and_eq_true, decide_eq_true_eq] at wf
  exact wf.1

/-- Every slot at or above 512 of a canonical table is FREE. -/
theorem Table.wf_get_above {t : List (Nat × Slot)} (wf : Table.wf t = true) {h : Nat}
    (above : Config.slotCount ≤ h) : Table.get t h = .free := by
  simp only [Table.wf, Bool.and_eq_true, List.all_eq_true, decide_eq_true_eq] at wf
  have key : ∀ u : List (Nat × Slot), (∀ c ∈ u, c.1 < Config.slotCount) → Table.get u h = .free := by
    intro u
    induction u with
    | nil => intro _; rfl
    | cons c rest ih =>
      intro below
      obtain ⟨j, w⟩ := c
      have hj : j < Config.slotCount := below (j, w) (by simp)
      simp only [Table.get, if_neg (show ¬ j = h by omega)]
      exact ih (fun c hc => below c (by simp [hc]))
  exact key t (fun c hc => (wf.2 c hc).1)

/-- A slot that is not FREE stands below 512 in a canonical table. -/
theorem Table.wf_lt_of_get_ne {t : List (Nat × Slot)} (wf : Table.wf t = true) {h : Nat}
    (used : Table.get t h ≠ .free) : h < Config.slotCount :=
  Nat.lt_of_not_le (fun above => used (Table.wf_get_above wf above))

/-- The slot of a handle after a write of a slot. -/
theorem State.setSlot_slot (s : State) (h k : Nat) (v : Slot) :
    (s.setSlot h v).slot k = if h = k then v else s.slot k :=
  Table.get_set s.table h k v

@[simp] theorem State.setSlot_slot_self (s : State) (h : Nat) (v : Slot) : (s.setSlot h v).slot h = v := by
  simp [State.setSlot_slot]

/-- A write of one slot leaves every other. -/
theorem State.setSlot_slot_ne (s : State) {h k : Nat} (v : Slot) (ne : h ≠ k) :
    (s.setSlot h v).slot k = s.slot k := by
  simp [State.setSlot_slot, ne]

end Sys2Proof.Machine
end

