-- ==== Sys2Proof/Laws/Answers.lean ====
section
/-! SUPPORT. The work of a block neither reads nor writes the port record and the transaction: each shared operation on
an answered state is the answered state of the operation. With these a request's outcome is read off its block. -/

namespace Sys2Proof.Machine

/-- An operation that commutes with the acceptance of a request. -/
def PortBlind (f : State → State) : Prop :=
  ∀ s code tag w, f (s.answers code tag w) = (f s).answers code tag w

/-- An operation with a result that commutes with the acceptance of a request and gives the same result after it. -/
def PortBlindWith {α : Type} (f : State → State × α) : Prop :=
  ∀ s code tag w, f (s.answers code tag w) = ((f s).1.answers code tag w, (f s).2)

theorem State.answers_answers (s : State) (code tag : Byte) (w : Work) (code' tag' : Byte) (w' : Work) :
    (s.answers code tag w).answers code' tag' w' = s.answers code' tag' w' := rfl

theorem State.answers_accept (s : State) (code tag : Byte) (w : Work) (code' tag' : Byte) (w' : Work) :
    (s.answers code tag w).accept code' tag' w' = s.answers code' tag' w' := rfl

/-- A choice that the port record and the transaction do not take part in. -/
theorem PortBlind.ite {f g : State → State} {c : State → Prop} [∀ s, Decidable (c s)]
    (same : ∀ s code tag w, c (s.answers code tag w) ↔ c s) (hf : PortBlind f) (hg : PortBlind g) :
    PortBlind (fun s => if c s then f s else g s) := by
  intro s code tag w
  by_cases h : c s
  · simp only [if_pos h, if_pos ((same s code tag w).2 h)]; exact hf s code tag w
  · simp only [if_neg h, if_neg (fun k => h ((same s code tag w).1 k))]; exact hg s code tag w

theorem PortBlindWith.ite {α : Type} {f g : State → State × α} {c : State → Prop} [∀ s, Decidable (c s)]
    (same : ∀ s code tag w, c (s.answers code tag w) ↔ c s) (hf : PortBlindWith f) (hg : PortBlindWith g) :
    PortBlindWith (fun s => if c s then f s else g s) := by
  intro s code tag w
  by_cases h : c s
  · simp only [if_pos h, if_pos ((same s code tag w).2 h)]; exact hf s code tag w
  · simp only [if_neg h, if_neg (fun k => h ((same s code tag w).1 k))]; exact hg s code tag w

/-- One operation after the other. -/
theorem PortBlind.then {f g : State → State} (hf : PortBlind f) (hg : PortBlind g) : PortBlind (fun s => g (f s)) := by
  intro s code tag w
  simp only [hf s code tag w]
  exact hg (f s) code tag w

/-- Several operations, one after the other. -/
theorem PortBlind.foldl_mem {α : Type} {f : State → α → State} (xs : List α)
    (h : ∀ x ∈ xs, PortBlind (fun s => f s x)) : PortBlind (fun s => xs.foldl f s) := by
  induction xs with
  | nil => intro s code tag w; rfl
  | cons x xs ih => exact PortBlind.then (h x (by simp)) (ih (fun y m => h y (by simp [m])))

theorem PortBlind.foldl {α : Type} {f : State → α → State} (h : ∀ x, PortBlind (fun s => f s x)) (xs : List α) :
    PortBlind (fun s => xs.foldl f s) := PortBlind.foldl_mem xs (fun x _ => h x)

theorem countUpFor_answers (e : Entry) : PortBlind (fun s => s.countUpFor e) := by
  intro s code tag w
  simp only [State.countUpFor]
  cases e.output <;> rfl

theorem countDownFor_answers (e : Entry) : PortBlind (fun s => s.countDownFor e) := by
  intro s code tag w
  simp only [State.countDownFor]
  cases e.output <;> rfl

theorem endActivity_answers (h : Nat) : PortBlind (fun s => s.endActivity h) := by
  intro s code tag w
  simp only [State.endActivity, State.answers_slot]
  cases s.slot h with
  | live e ok r =>
    obtain ⟨act, spent, log⟩ := r
    cases act with
    | idle => rfl
    | active d => exact countDownFor_answers e (s.setSlot h (.live e ok ⟨.idle, spent, log⟩)) code tag w
  | _ => rfl

theorem silenceAxis_answers (a : AxisId) : PortBlind (fun s => s.silenceAxis a) := by
  intro s code tag w
  have hl : (s.answers code tag w).liveOf a = s.liveOf a := rfl
  have h := PortBlind.foldl (f := State.endActivity) endActivity_answers (s.liveOf a) s code tag w
  simp only [State.silenceAxis] at h ⊢
  rw [hl, h]
  generalize List.foldl State.endActivity s (s.liveOf a) = t
  rfl

theorem hand_answers (h : Nat) : PortBlind (fun s => s.hand h) := by
  intro s code tag w
  simp only [State.hand, State.answers_slot]
  cases s.slot h <;> rfl

theorem reportFault_answers (cause : FaultCause) (a : AxisId) (p : Nat) (rev : BitVec 16) :
    PortBlind (fun s => s.reportFault cause a p rev) := by
  intro s code tag w
  simp only [State.reportFault, State.answers_report]
  cases s.report <;> rfl

theorem runClaim_answers (t : Task) : PortBlind (fun s => s.runClaim t) := by
  intro s code tag w
  cases t with
  | hand h => exact hand_answers h s code tag w
  | fenceReport h a p rev => exact reportFault_answers (.entryCheck h) a p rev s code tag w
  | _ => rfl

/-- A turn of a channel, for a task whose work is blind. -/
theorem takeVia_answers {run : State → Task → State} {t : Task} (blind : PortBlind (fun s => run s t)) (a : AxisId) :
    PortBlind (fun s => s.takeVia run a t) :=
  PortBlind.ite (c := fun s => (s.busy a || t.stop?.any (fun p => s.stops.contains p)) = true)
    (fun _ _ _ _ => Iff.rfl) (fun _ _ _ _ => rfl) blind

theorem claim_answers (a : AxisId) (t : Task) : PortBlind (fun s => State.claim a s t) :=
  takeVia_answers (runClaim_answers t) a

theorem takeHanding_answers (h : Nat) (a : AxisId) : PortBlind (fun s => State.takeHanding h s a) := by
  intro s code tag w
  simp only [State.takeHanding, State.answers_channel]
  split
  · split
    · next rest inverted _ _ => exact hand_answers h (s.setChannel a ⟨rest, inverted⟩) code tag w
    · rfl
  · rfl

theorem fenceSlot_answers (h : Nat) (e : Entry) (log : FireLog) : PortBlind (fun s => s.fenceSlot h e log) := by
  intro s code tag w
  have taken := PortBlind.ite (c := fun s => (s.slot h).lifecycle = .staged) (f := fun s => s.takeHandings h)
    (g := fun s => s) (fun _ _ _ _ => Iff.rfl) (PortBlind.foldl (takeHanding_answers h) axisIds)
    (fun _ _ _ _ => rfl) s code tag w
  exact congrArg (fun t : State => (t.setSlot h (.fenced e false log)).setList e.axis ((s.list e.axis).drop h)) taken

theorem beginFence_answers (h : Nat) : PortBlindWith (fun s => s.beginFence h) := by
  intro s code tag w
  simp only [State.beginFence, State.answers_slot, State.answers_axis]
  cases (s.slot h).toFence with
  | none => rfl
  | some p => exact congrArg (fun t => (t, _)) (fenceSlot_answers h p.1 p.2.2 s code tag w)

theorem fenceFrom_answers (a : AxisId) (h : Nat) : PortBlind (fun s => s.fenceFrom a h) := by
  intro s code tag w
  have begun := beginFence_answers h s code tag w
  simp only at begun
  simp only [State.fenceFrom, begun]
  exact PortBlind.foldl (claim_answers a) (s.beginFence h).2 (s.beginFence h).1 code tag w

theorem checkRead_answers (h : Nat) : PortBlindWith (fun s => s.checkRead h) :=
  PortBlindWith.ite (c := fun s => (s.slot h).failsCheck = true) (fun _ _ _ _ => Iff.rfl) (beginFence_answers h)
    (fun _ _ _ _ => rfl)

theorem takeFences_answers (o : OutId) : PortBlind (fun s => s.takeFences o) :=
  PortBlind.foldl (f := State.takeFence o) (fun a s code tag w =>
    PortBlind.foldl runClaim_answers ((s.channel a).rest.filter (Task.fences o))
      (s.setChannel a { s.channel a with rest := (s.channel a).rest.filter (fun t => !t.fences o) }) code tag w) axisIds

theorem fire_answers (a : AxisId) (h : Nat) (dir : FireDir) (act : Activity) :
    PortBlind (fun s => s.fire a h dir act) := by
  intro s code tag w
  simp only [State.fire, State.answers_slot, State.answers_axis]
  cases s.slot h with
  | live e ok r =>
    simp only
    split
    · exact claim_answers a (.hand h) (s.setSlot h (.live e ok (r.fired e (s.axis e.axis).revolution dir act))) code tag w
    · rfl
  | _ => rfl

theorem activate_answers (a : AxisId) (h : Nat) (e : Entry) (dir : FireDir) (timer : Option Nat) :
    PortBlind (fun s => s.activate a h e dir timer) :=
  PortBlind.then (countUpFor_answers e) (fire_answers a h dir (.active timer))

/-- The work on one entry, for an action on a consistent entry that is blind. -/
theorem judge_answers (a : AxisId) (h : Nat) {act : State → Entry → Run → State}
    (blind : ∀ e r, PortBlind (fun s => act s e r)) : PortBlind (fun s => s.judge a h (act s)) := by
  intro s code tag w
  simp only [State.judge, show (s.answers code tag w).judged a h = s.judged a h from rfl]
  cases s.judged a h with
  | none => rfl
  | some p =>
    obtain ⟨e, ok, r⟩ := p
    cases ok with
    | true => exact blind e r s code tag w
    | false => exact fenceFrom_answers a h s code tag w

theorem settleEntry_answers (a : AxisId) (h : Nat) (e : Entry) (r : Run) :
    PortBlind (fun s => s.settleEntry a h e r) := by
  unfold State.settleEntry
  cases e.action with
  | window o off =>
    exact PortBlind.ite (c := fun s => r.activity = .idle ∧ r.spent = false ∧ s.inWindow e off = true)
      (fun _ _ _ _ => Iff.rfl) (activate_answers a h e .none none) (fun _ _ _ _ => rfl)
  | _ => intro s code tag w; rfl

theorem settle_answers (a : AxisId) (h : Nat) : PortBlind (fun s => s.settle a h) :=
  judge_answers a h (settleEntry_answers a h)

theorem jumpSettle_answers (a : AxisId) (h : Nat) : PortBlind (fun s => s.jumpSettle a h) := by
  intro s code tag w
  simp only [State.jumpSettle, show (s.answers code tag w).judged a h = s.judged a h from rfl]
  cases s.judged a h with
  | none => rfl
  | some p => exact settleEntry_answers a h p.1 p.2.2 s code tag w

theorem jumpDrop_answers (a : AxisId) (h : Nat) : PortBlind (fun s => s.jumpDrop a h) :=
  judge_answers a h (act := fun s e _ =>
    match e.action with
    | .window _ off => if s.inWindow e off then s else s.endActivity h
    | _ => s) (fun e _ => by
      cases e.action with
      | window o off =>
        exact PortBlind.ite (c := fun s => s.inWindow e off = true) (fun _ _ _ _ => Iff.rfl) (fun _ _ _ _ => rfl)
          (endActivity_answers h)
      | _ => intro s code tag w; rfl)

/-- The settles and the drops of a channel are blind, as all its work on entries at a jump. -/
theorem jumpTask_answers (a : AxisId) (t : Task)
    (jump : (∃ h, t = .settle h) ∨ (∃ h, t = .jumpDrop h) ∨ ∃ h, t = .jumpSettle h) :
    PortBlind (fun s => s.takeVia (State.runEntry a) a t) := by
  refine takeVia_answers ?_ a
  rcases jump with ⟨h, rfl⟩ | ⟨h, rfl⟩ | ⟨h, rfl⟩
  · exact settle_answers a h
  · exact jumpDrop_answers a h
  · exact jumpSettle_answers a h

theorem settleAll_answers (a : AxisId) (hs : List Nat) : PortBlind (fun s => s.settleAll a hs) :=
  PortBlind.foldl_mem (hs.map Task.settle) (fun t m => jumpTask_answers a t (by
    obtain ⟨h, -, rfl⟩ := List.mem_map.1 m; exact .inl ⟨h, rfl⟩))

theorem settleWindows_answers (a : AxisId) : PortBlind (fun s => s.settleWindows a) := by
  intro s code tag w
  exact settleAll_answers a (s.liveWindows a) s code tag w

theorem settleApplied_answers (a : AxisId) (items : List Item) : PortBlind (fun s => s.settleApplied a items) := by
  intro s code tag w
  simp only [State.settleApplied, State.answers_slot, show (s.answers code tag w).order a = s.order a from rfl]
  exact settleAll_answers a _ s code tag w

theorem evaluateJump_answers (a : AxisId) : PortBlind (fun s => s.evaluateJump a) := by
  intro s code tag w
  exact PortBlind.foldl_mem ((s.liveWindows a).map Task.jumpDrop ++ (s.liveWindows a).map Task.jumpSettle)
    (fun t m => jumpTask_answers a t (by
      rcases List.mem_append.1 m with m | m
      · obtain ⟨h, -, rfl⟩ := List.mem_map.1 m; exact .inr (.inl ⟨h, rfl⟩)
      · obtain ⟨h, -, rfl⟩ := List.mem_map.1 m; exact .inr (.inr ⟨h, rfl⟩))) s code tag w

theorem jumpTo_answers (a : AxisId) (v : Nat) : PortBlind (fun s => s.jumpTo a v) := by
  intro s code tag w
  exact evaluateJump_answers a (s.setAxis a ((s.axis a).jumped v)) code tag w

theorem enterSafe_answers : PortBlind State.enterSafe := by
  intro s code tag w
  simp only [State.enterSafe, State.answers_condition]
  by_cases c : s.condition = .safe
  · exact (if_pos c).trans (congrArg (fun t => State.answers t code tag w) (if_pos c).symm)
  · exact (if_neg c).trans (Eq.symm ((congrArg (fun t => State.answers t code tag w) (if_neg c)).trans rfl))

theorem finishRelease_answers : PortBlind State.finishRelease := by
  intro s code tag w
  simp only [State.finishRelease]
  rw [show (s.answers code tag w).anySafeHold = s.anySafeHold from rfl]
  by_cases c : s.anySafeHold = true
  · exact (if_pos c).trans (congrArg (fun t => State.answers t code tag w) (if_pos c).symm)
  · exact (if_neg c).trans (Eq.symm ((congrArg (fun t => State.answers t code tag w) (if_neg c)).trans rfl))

theorem releaseWhere_answers (p : Option AxisId → Bool) : PortBlind (fun s => s.releaseWhere p) := by
  intro s code tag w
  simp only [State.releaseWhere, State.answers_outputs]
  by_cases c : s.outputs.toList.any (Output.released p) = true
  · exact (if_pos c).trans ((finishRelease_answers { s with outputs := s.outputs.map (Output.release p) } code tag w).trans
      (congrArg (fun t => State.answers t code tag w) (if_pos c).symm))
  · exact (if_neg c).trans (congrArg (fun t => State.answers t code tag w) (if_neg c).symm)

theorem releaseAxis_answers (a : AxisId) : PortBlind (fun s => s.releaseAxis a) := by
  intro s code tag w
  simp only [State.releaseAxis, State.answers_condition]
  by_cases c : s.condition = .releasing
  · exact (if_pos c).trans ((releaseWhere_answers _ s code tag w).trans
      (congrArg (fun t => State.answers t code tag w) (if_pos c).symm))
  · exact (if_neg c).trans (congrArg (fun t => State.answers t code tag w) (if_neg c).symm)

theorem beginRelease_answers : PortBlind State.beginRelease := by
  intro s code tag w
  exact finishRelease_answers { s with
    condition := .releasing, outputs := s.outputs.map (Output.release (fun b => !s.waits b)) } code tag w

theorem rebound_answers (o : OutId) : PortBlind (fun s => s.rebound o) := by
  intro s code tag w
  simp only [State.rebound, State.answers_condition, State.answers_output]
  rw [show (s.answers code tag w).waits = s.waits from rfl]
  by_cases c : s.condition = .releasing ∧ (s.output o).safeHold = true ∧ ¬ s.waits (s.output o).binding = true
  · exact (if_pos c).trans ((finishRelease_answers (s.setOutput o { s.output o with safeHold := false }) code tag w).trans
      (congrArg (fun t => State.answers t code tag w) (if_pos c).symm))
  · exact (if_neg c).trans (congrArg (fun t => State.answers t code tag w) (if_neg c).symm)

/-! ### How the work of a request goes on -/

theorem takeClaims_answers (ts : List Task) : PortBlindWith (fun s => s.takeClaims ts) := by
  induction ts with
  | nil => intro s code tag w; rfl
  | cons t ts ih =>
    refine PortBlindWith.ite (c := fun s => t.stop?.any (fun p => s.stops.contains p) = true) (fun _ _ _ _ => Iff.rfl)
      (fun _ _ _ _ => rfl) (fun s code tag w => ?_)
    have claim := runClaim_answers t s code tag w
    simp only at claim
    simp only [claim]
    exact ih (s.runClaim t) code tag w

theorem readItem_answers (i : ReadItem) (s : State) (code tag : Byte) (w : Work) :
    (s.answers code tag w).readItem i = s.readItem i := by
  cases i <;> rfl

theorem takeItemsOf_answers (rest : List ReadItem) (s : State) (taken : List (ReadItem × List Byte)) (code tag : Byte)
    (w : Work) : (s.answers code tag w).takeItemsOf taken rest = s.takeItemsOf taken rest := by
  induction rest generalizing taken with
  | nil => rfl
  | cons i rest ih => simp only [State.takeItemsOf, readItem_answers, ih, State.answers_stops]

theorem retireFenced_answers (h : Nat) : PortBlindWith (fun s => s.retireFenced h) := by
  intro s code tag w
  simp only [State.retireFenced, State.answers_slot]
  cases s.slot h <;> rfl

theorem settleClosed_answers (a : AxisId) (items : List Item) (h : Nat) (retired : Bool) :
    PortBlindWith (fun s => s.settleClosed a items h retired) := by
  have parts : PortBlind (fun s => s.takeParts a [.settleApplied items, .served]) :=
    PortBlind.foldl_mem (f := State.takeVia (State.runPart a) a) _ (fun t m => by
      rcases List.mem_cons.1 m with rfl | m
      · exact takeVia_answers (run := State.runPart a) (t := .settleApplied items)
          (show PortBlind (fun s => s.settleApplied a items) from settleApplied_answers a items) a
      · rw [List.mem_singleton.1 m]
        exact takeVia_answers (run := State.runPart a) (t := .served) (fun _ _ _ _ => rfl) a)
  intro s code tag w
  have := parts s code tag w
  simp only at this
  simp only [State.settleClosed, this]
  rfl

theorem proceed_answers (next : Next) : PortBlindWith (fun s => s.proceed next) := by
  cases next with
  | reply status payload => intro s code tag w; rfl
  | retire h => exact retireFenced_answers h
  | closed a items h retired => exact settleClosed_answers a items h retired

/-- Whatever work a block has left, it goes on the same way behind the port. -/
theorem goOn_answers (work : Work) : PortBlindWith (fun s => s.goOn work) := by
  intro s code tag w
  cases work with
  | claiming rest next stops =>
    have claims := takeClaims_answers rest s code tag w
    simp only at claims
    simp only [State.goOn, claims]
    rcases s.takeClaims rest with ⟨t, _ | ⟨c, left⟩⟩
    · exact proceed_answers next t code tag w
    · rfl
  | channel a next stops =>
    simp only [State.goOn, show (s.answers code tag w).serving a = s.serving a from rfl]
    cases s.serving a with
    | true => rfl
    | false => exact proceed_answers next s code tag w
  | sampling asked rest taken stops =>
    simp only [State.goOn, takeItemsOf_answers]
    rcases s.takeItemsOf taken rest with ⟨_ | ⟨i, left⟩, taken⟩ <;> rfl
  | _ => rfl

end Sys2Proof.Machine
end

