-- ==== Sys2Proof/Laws/Bytes.lean ====
section
/-! SUPPORT. Bytes: numbers read back from the bytes that carry them, and the decoding of the argument bytes of each
request. -/

namespace Sys2Proof.Machine

theorem bytesOf_length (n v : Nat) : (bytesOf n v).length = n := by
  induction n with
  | zero => rfl
  | succ n ih => simp [bytesOf, ih]

theorem signedBytesOf_length (n : Nat) (v : Int) : (signedBytesOf n v).length = n := bytesOf_length n _

theorem natOf_foldl_bytesOf (n v acc : Nat) :
    (bytesOf n v).foldl (fun acc b => acc * 256 + b.toNat) acc = acc * 256 ^ n + v % 256 ^ n := by
  induction n generalizing acc with
  | zero => simp [bytesOf, Nat.mod_one]
  | succ n ih =>
    simp only [bytesOf, List.foldl_cons, ih, BitVec.toNat_ofNat]
    have h := Nat.mod_mul (x := v) (a := 256 ^ n) (b := 256)
    have e : 256 ^ (n + 1) = 256 ^ n * 256 := pow_succ 256 n
    rw [e, h]
    ring

/-- The number that `n` bytes carry, where it fits. -/
theorem natOf_bytesOf (n v : Nat) (fits : v < 256 ^ n) : natOf (bytesOf n v) = v := by
  have h := natOf_foldl_bytesOf n v 0
  simp only [Nat.zero_mul, Nat.zero_add, Nat.mod_eq_of_lt fits] at h
  exact h

/-- The signed number that `n` bytes carry, where it fits. -/
theorem intOf_signedBytesOf (n : Nat) (v : Int) (low : -(256 ^ n : Nat) ≤ 2 * v) (high : 2 * v < (256 ^ n : Nat)) :
    intOf (signedBytesOf n v) = v := by
  have pos : 0 < 256 ^ n := Nat.pow_pos (by norm_num)
  have below : (v % ((256 ^ n : Nat) : Int)).toNat < 256 ^ n := by
    have h1 := Int.emod_nonneg v (b := ((256 ^ n : Nat) : Int)) (by omega)
    have h2 := Int.emod_lt_of_pos v (b := ((256 ^ n : Nat) : Int)) (by omega)
    omega
  unfold intOf signedBytesOf
  simp only [natOf_bytesOf n _ below, bytesOf_length]
  generalize hM : (256 ^ n : Nat) = M at *
  have hcast : ((v % (M : Int)).toNat : Int) = v % M := by
    have h1 := Int.emod_nonneg v (b := (M : Int)) (by omega)
    omega
  rcases lt_or_ge v 0 with neg | nonneg
  · have e : v % (M : Int) = v + M := by
      rw [← Int.add_emod_right]
      exact Int.emod_eq_of_lt (by omega) (by omega)
    rw [e] at hcast
    split <;> omega
  · have e : v % (M : Int) = v := Int.emod_eq_of_lt nonneg (by omega)
    rw [e] at hcast
    split <;> omega

/-- A field that stands after `pre` in an argument area. -/
theorem fieldAt_append (pre bs post : List Byte) (offset n : Nat) (at_ : pre.length = offset) (len : bs.length = n) :
    fieldAt (pre ++ bs ++ post) offset n = bs := by
  subst at_ len
  simp [fieldAt]

@[simp] theorem byteOf_toNat (v : Nat) : (byteOf v).toNat = v % 256 := by simp [byteOf]

@[simp] theorem natOf_singleton (b : Byte) : natOf [b] = b.toNat := by simp [natOf]

theorem boolOf_boolByte (b : Bool) : boolOf (boolByte b).toNat = some b := by cases b <;> rfl

theorem axisOf_byteOf (a : AxisId) : axisOf (byteOf a).toNat = some a := by
  have h : (a : Nat) % 256 = a := by omega
  simp [axisOf, h]

theorem outputOf_byteOf (o : OutId) : outputOf (byteOf o).toNat = some o := by
  have h : (o : Nat) % 256 = o := by omega
  simp [outputOf, h]

theorem bindingOf_bindingByte (b : Option AxisId) : bindingOf (bindingByte b).toNat = some b := by
  cases b with
  | none => rfl
  | some a =>
    have h : (a : Nat) % 256 = a := by omega
    have h' : ¬ (a : Nat) = 255 := by omega
    simp [bindingByte, bindingOf, axisOf, h, h']

theorem sourceOf_code (x : Source) : sourceOf x.code.toNat = some x := by cases x <;> rfl
theorem faultActionOf_code (x : FaultAction) : faultActionOf x.code.toNat = some x := by cases x <;> rfl
theorem driveOf_code (x : DriveType) : driveOf x.code.toNat = some x := by cases x <;> rfl
theorem polarityOf_code (x : Polarity) : polarityOf x.code.toNat = some x := by cases x <;> rfl
theorem safeLevelOf_code (x : SafeLevel) : safeLevelOf x.code.toNat = some x := by cases x <;> rfl
theorem modeOf_code (x : Mode) : modeOf x.code.toNat = some x := by cases x <;> rfl
theorem kindOf_code (x : Kind) : kindOf x.code.toNat = some x := by cases x <;> rfl
theorem qualifierOf_code (x : Qualifier) : qualifierOf x.code.toNat = some x := by cases x <;> rfl

theorem natAt_bytesOf_append (pre post : List Byte) (offset n v : Nat) (at_ : pre.length = offset)
    (fits : v < 256 ^ n) : natAt (pre ++ bytesOf n v ++ post) offset n = v := by
  rw [natAt, fieldAt_append pre _ post offset n at_ (bytesOf_length n v), natOf_bytesOf n v fits]

theorem natAt_byte_append (pre post : List Byte) (offset : Nat) (b : Byte) (at_ : pre.length = offset) :
    natAt (pre ++ b :: post) offset 1 = b.toNat := by
  have h := fieldAt_append pre [b] post offset 1 at_ rfl
  simp only [List.append_assoc, List.singleton_append] at h
  rw [natAt, h, natOf_singleton]

theorem intAt_signedBytesOf_append (pre post : List Byte) (offset n : Nat) (v : Int) (at_ : pre.length = offset)
    (low : -(256 ^ n : Nat) ≤ 2 * v) (high : 2 * v < (256 ^ n : Nat)) :
    intAt (pre ++ signedBytesOf n v ++ post) offset n = v := by
  rw [intAt, fieldAt_append pre _ post offset n at_ (signedBytesOf_length n v),
    intOf_signedBytesOf n v low high]

/-! ### The argument bytes of each request decode to its values -/

theorem natOf_two (v : Nat) (fits : v < 65536) :
    natOf [BitVec.ofNat 8 (v / 256), BitVec.ofNat 8 v] = v := by
  have h := natOf_bytesOf 2 v (by simpa using fits)
  simpa [bytesOf] using h

theorem natOf_three (v : Nat) (fits : v < 16777216) :
    natOf [BitVec.ofNat 8 (v / 65536), BitVec.ofNat 8 (v / 256), BitVec.ofNat 8 v] = v := by
  have h := natOf_bytesOf 3 v (by simpa using fits)
  simpa [bytesOf] using h

theorem natAt_bytesOf_two (v : Nat) (fits : v < 65536) : natAt (bytesOf 2 v) 0 2 = v := by
  simpa [natAt, fieldAt, bytesOf] using natOf_two v fits

theorem label_two (l : BitVec 16) :
    BitVec.ofNat 16 (natOf [BitVec.ofNat 8 (l.toNat / 256), BitVec.setWidth 8 l]) = l := by
  have h := natOf_two l.toNat l.isLt
  rw [BitVec.ofNat_toNat] at h
  rw [h, BitVec.ofNat_toNat, BitVec.setWidth_eq]

theorem axis_mod (a : AxisId) : (a : Nat) % 256 = a := by omega

theorem output_mod (o : OutId) : (o : Nat) % 256 = o := by omega

theorem decodePlace_placeArgs (e : Entry) (close : Bool) (range : e.InRange) :
    decodePlace (placeArgs e close) = some (e, close) := by
  obtain ⟨axis, on, action, once, notify, label⟩ := e
  obtain ⟨hon, hoff, hdur, hmark⟩ := range
  cases action with
  | window o off =>
    have hoff : off < 65536 := hoff off rfl
    simp [decodePlace, placeArgs, Entry.kind, Entry.output, Entry.off?, Entry.duration?, Entry.qualifier?, natAt,
      fieldAt, bytesOf, kindOf_code, boolOf_boolByte, decodeAction, natOf_two, label_two, hon, hoff, axisOf,
      outputOf, axis_mod, output_mod]
  | pulse o d q =>
    have hdur : 10 ≤ d ∧ d ≤ 65535 := hdur d rfl
    simp [decodePlace, placeArgs, Entry.kind, Entry.output, Entry.off?, Entry.duration?, Entry.qualifier?, natAt,
      fieldAt, bytesOf, kindOf_code, boolOf_boolByte, decodeAction, natOf_two, label_two, qualifierOf_code, withinNat,
      hon, axisOf, outputOf, hdur, show d < 65536 by omega, axis_mod, output_mod]
  | toggle o q =>
    simp [decodePlace, placeArgs, Entry.kind, Entry.output, Entry.off?, Entry.duration?, Entry.qualifier?, natAt,
      fieldAt, bytesOf, kindOf_code, boolOf_boolByte, decodeAction, natOf_two, label_two, qualifierOf_code,
      hon, axisOf, outputOf, axis_mod, output_mod]
  | mark q =>
    have hn : notify = true := hmark rfl
    simp [decodePlace, placeArgs, Entry.kind, Entry.output, Entry.off?, Entry.duration?, Entry.qualifier?, natAt,
      fieldAt, bytesOf, kindOf_code, boolOf_boolByte, decodeAction, natOf_two, label_two, qualifierOf_code,
      hon, axisOf, hn, axis_mod]

theorem presence_bits (v : AlterValues) : ∃ m : ReasonSet, reasonsOf v.presence.toNat = some m
    ∧ m.getLsbD 0 = v.on.isSome ∧ m.getLsbD 1 = v.off.isSome ∧ m.getLsbD 2 = v.duration.isSome
    ∧ m.getLsbD 3 = v.qualifier.isSome ∧ m.getLsbD 4 = v.oncePerRev.isSome ∧ m.getLsbD 5 = v.notify.isSome
    ∧ m.getLsbD 6 = v.label.isSome := by
  unfold AlterValues.presence
  generalize v.on.isSome = b0, v.off.isSome = b1, v.duration.isSome = b2, v.qualifier.isSome = b3,
    v.oncePerRev.isSome = b4, v.notify.isSome = b5, v.label.isSome = b6
  refine ⟨BitVec.ofNat 7 ((if b0 then 1 else 0) + (if b1 then 2 else 0) + (if b2 then 4 else 0)
    + (if b3 then 8 else 0) + (if b4 then 16 else 0) + (if b5 then 32 else 0) + (if b6 then 64 else 0)), ?_⟩
  revert b0 b1 b2 b3 b4 b5 b6
  decide

theorem decodeWhen_isSome {α : Type} (x : Option α) (y : α) :
    decodeWhen x.isSome (some (x.getD y)) = some x := by
  cases x <;> rfl

theorem decodeAlter_alterArgs (h : Nat) (v : AlterValues) (close : Bool) (below : h < 512) (range : v.InRange) :
    decodeAlter (alterArgs h v close) = some (h, v, close) := by
  obtain ⟨m, hm, b0, b1, b2, b3, b4, b5, b6⟩ := presence_bits v
  obtain ⟨hon, hoff, hdur⟩ := range
  have hh : h < 65536 := by omega
  have ron : v.on.getD 0 < 65536 := by cases e : v.on <;> simp_all
  have roff : v.off.getD 0 < 65536 := by cases e : v.off <;> simp_all
  have rdur : v.duration.getD 0 < 65536 := by
    cases e : v.duration with
    | none => simp
    | some d => have := hdur d e; simp only [Option.getD_some]; omega
  have dq : decodeWhen v.qualifier.isSome
      (qualifierOf ((v.qualifier.map Qualifier.code).getD 0#8).toNat) = some v.qualifier := by
    cases v.qualifier with
    | none => rfl
    | some q => simp [decodeWhen, qualifierOf_code]
  have dd : decodeWhen v.duration.isSome (withinNat 10 65535 (v.duration.getD 0)) = some v.duration := by
    cases e : v.duration with
    | none => rfl
    | some d => have := hdur d e; simp [decodeWhen, withinNat, this]
  have dl : decodeWhen v.label.isSome (some (BitVec.ofNat 16 ((v.label.map BitVec.toNat).getD 0))) = some v.label := by
    cases v.label <;> simp [decodeWhen]
  have ll : (v.label.map BitVec.toNat).getD 0 < 65536 := by
    cases e : v.label with
    | none => simp
    | some l => simpa using l.isLt
  have dec2 : ∀ x : Option Bool, decodeWhen x.isSome (some (x.getD false)) = some x :=
    fun x => decodeWhen_isSome x false
  have d0 : decodeWhen v.on.isSome (some (v.on.getD 0)) = some v.on := decodeWhen_isSome v.on 0
  have d1 : decodeWhen v.off.isSome (some (v.off.getD 0)) = some v.off := decodeWhen_isSome v.off 0
  simp at b0 b1 b2 b3 b4 b5 b6
  simp [decodeAlter, alterArgs, AlterValues.bytes, natAt, fieldAt, bytesOf, handleOf, natOf_two, Config.slotCount,
    d0, d1, dec2, hh, below, hm, b0, b1, b2, b3, b4, b5, b6, ron, roff, rdur, ll, dq, dd, dl,
    boolOf_boolByte]

theorem decodeRetire_bytes (h : Nat) (close : Bool) (below : h < 512) :
    decodeRetire (bytesOf 2 h ++ [boolByte close]) = some (h, close) := by
  have hh : h < 65536 := by omega
  simp [decodeRetire, natAt, fieldAt, bytesOf, handleOf, natOf_two, hh, below, Config.slotCount, boolOf_boolByte]

theorem decodeConfigOutput_args (c : OutputConfig) : decodeConfigOutput (configOutputArgs c) = some c := by
  simp [decodeConfigOutput, configOutputArgs, natAt, fieldAt, outputOf, bindingOf_bindingByte, driveOf_code,
    polarityOf_code, safeLevelOf_code, boolOf_boolByte, output_mod]

theorem decodeConfigAxis_configAxisArgs (a : AxisId) (c : AxisConfig) (range : c.InRange) :
    decodeConfigAxis (configAxisArgs a c) = some (a, some c) := by
  obtain ⟨source, modulus, indexPoint, tolerance, invert, filter, faultAction⟩ := c
  obtain ⟨h1, h2, h3⟩ := range
  have hm : modulus < 16777216 := by simp only at h2; omega
  cases indexPoint with
  | none =>
    simp_all [decodeConfigAxis, configAxisArgs, decodeAxisConfig, decodeIndexPoint, natAt, fieldAt, bytesOf,
      axisOf, axis_mod, sourceOf_code, faultActionOf_code, boolOf_boolByte, withinNat, natOf_three,
      byteOf]
  | some p =>
    have hp : p < modulus := h3 p rfl
    have hp' : p < 65536 := by simp only at h2; omega
    simp_all [decodeConfigAxis, configAxisArgs, decodeAxisConfig, decodeIndexPoint, natAt, fieldAt, bytesOf,
      axisOf, axis_mod, sourceOf_code, faultActionOf_code, boolOf_boolByte, withinNat, natOf_three,
      natOf_two, byteOf]

theorem decodeConfigAxis_offAxisArgs (a : AxisId) : decodeConfigAxis (offAxisArgs a) = some (a, none) := by
  simp [decodeConfigAxis, offAxisArgs, natAt, fieldAt, axisOf, axis_mod]

theorem decodeSetLead_bytes (o : OutId) (lead : Int) (close : Bool) (low : -2048 ≤ lead) (high : lead ≤ 2047) :
    decodeSetLead ([byteOf o] ++ signedBytesOf 2 lead ++ [boolByte close]) = some (o, lead, close) := by
  have h := intAt_signedBytesOf_append [byteOf o] [boolByte close] 1 2 lead rfl (by norm_num; omega)
    (by norm_num; omega)
  have h2 : natAt ([byteOf o] ++ signedBytesOf 2 lead ++ [boolByte close]) 3 1 = (boolByte close).toNat :=
    natAt_byte_append ([byteOf o] ++ signedBytesOf 2 lead) [] 3 _ (by simp [signedBytesOf_length])
  have h3 : natAt ([byteOf o] ++ signedBytesOf 2 lead ++ [boolByte close]) 0 1 = (byteOf o).toNat :=
    natAt_byte_append [] _ 0 _ rfl
  simp only [decodeSetLead, h, h2, h3, outputOf_byteOf, withinInt, low, high, boolOf_boolByte, and_self, if_true,
    Option.bind_eq_bind, Option.bind_some, Option.pure_def]

end Sys2Proof.Machine
end

