-- ==== Sys2Proof/Laws/Requests.lean ====
section
/-! SUPPORT. What a request frame does: the frame of a code, tag and arguments passes the checks of R177, padded or
not, and a request in a state that takes it leaves what its block makes of the arguments. -/

namespace Sys2Proof.Machine

/-- A well-formed frame, padded or not, is judged to carry its tag and arguments (R177). -/
theorem judgeFrame_frameRest (code tag : Byte) (args padding : List Byte) (short : args.length ≤ 60) :
    judgeFrame code (frameRest code tag args ++ padding) = .frame tag args := by
  have len : (byteOf args.length).toNat = args.length := by
    rw [byteOf_toNat]; omega
  simp only [judgeFrame, frameRest, List.cons_append, List.nil_append, List.append_assoc, len]
  rw [if_neg (by simp; omega)]
  simp

/-- What a request frame does in a state whose transaction the port judges (R177, R178). -/
theorem request_of_judges (s : State) (code : Byte) (rest : List Byte) (pace : Pace) (block : Handler) (l : Lines)
    (judged : s.judges = true) :
    s.request code rest pace block l = match judgeFrame code rest with
      | .framing => s.endTransaction.rejectFraming
      | .crc => s.endTransaction.rejectCrc
      | .frame tag args =>
        if s.port.state ≠ .idle then s.endTransaction.rejectBusy
        else if s.port.lastTag = some tag then s.endTransaction
        else s.endTransaction.carryOut code tag args pace block l := by
  simp only [State.request, judged, if_true]
  cases judgeFrame code rest <;> rfl

/-- The port judges a transaction exactly when it serves it (R185). -/
theorem judges_iff (s : State) : s.judges = true ↔ s.phase = .serving ∧ s.transaction ≠ .unserved := by
  simp [State.judges]

/-- A request that is accepted (R178): its block is handed the arguments. -/
theorem request_of_ready (s : State) (code tag : Byte) (args padding : List Byte) (pace : Pace) (block : Handler)
    (l : Lines) (short : args.length ≤ 60) (ready : s.Ready tag) :
    s.request code (frameRest code tag args ++ padding) pace block l
      = s.endTransaction.carryOut code tag args pace block l := by
  obtain ⟨serving, served, idle, fresh, -⟩ := ready
  rw [request_of_judges s code _ pace block l ((judges_iff s).2 ⟨serving, served⟩),
    judgeFrame_frameRest code tag args padding short]
  simp [idle, fresh]

/-- The state that a block is handed at an acceptance (R178). -/
theorem endTransaction_accept (s : State) (code tag : Byte) (w : Work) :
    s.endTransaction.accept code tag w = s.answers code tag w := rfl

/-- An accepted request of known code and right length whose block is to work later waits with its arguments (R180). -/
theorem request_later (s : State) (code tag : Byte) (args padding : List Byte) (block : Handler) (l : Lines) (n : Nat)
    (pace : Pace) (later : pace.workLater = true) (known : argLength code = some n) (len : args.length = n)
    (short : n ≤ 60) (ready : s.Ready tag) :
    s.request code (frameRest code tag args ++ padding) pace block l = s.answers code tag (.waiting args l pace) := by
  rw [request_of_ready s code tag args padding _ block l (by omega) ready, State.carryOut, known]
  simp only [len, if_true, endTransaction_accept, later]

/-- An accepted request of known code and right length that works at once (R180). -/
theorem request_now (s : State) (code tag : Byte) (args padding : List Byte) (block : Handler) (l : Lines) (n : Nat)
    (pace : Pace) (now : pace.workLater = false) (known : argLength code = some n) (len : args.length = n)
    (short : n ≤ 60) (ready : s.Ready tag) :
    s.request code (frameRest code tag args ++ padding) pace block l
      = (s.answers code tag (.waiting args l pace)).runBlock code block args pace := by
  rw [request_of_ready s code tag args padding _ block l (by omega) ready, State.carryOut, known]
  simp only [len, if_true, endTransaction_accept, now]
  rfl

/-- Where no channel has stopped within the application of a list there is none to end (R120). -/
theorem endAllApplying_alone (s : State) (alone : ∀ a, s.applying a = false) : s.endAllApplying = s := by
  have keeps : ∀ xs : List AxisId, xs.foldl State.endApplying s = s := by
    intro xs
    induction xs with
    | nil => rfl
    | cons a xs ih => simpa [List.foldl_cons, State.endApplying, alone a] using ih
  exact keeps axisIds

/-- What the work of a block leaves (R180): the block's own state, and what the claims it has still to take make of it up to
a stop, with their outcome taken up. -/
theorem runBlock_answers (s t u : State) (code tag : Byte) (w left done : Work) (block : Handler) (args : List Byte)
    (pace : Pace) (alone : passesApplications code = true ∨ ∀ a, s.applying a = false)
    (worked : block args (({ s with stops := pace.stops } : State).answers code tag w) = (t.answers code tag w, left))
    (wentOn : t.goOn (left.inOrder pace.order) = (u, done)) :
    (s.answers code tag w).runBlock code block args pace = ({ u with stops := s.stops } : State).answers code tag done := by
  have same : (if passesApplications code then s.answers code tag w else (s.answers code tag w).endAllApplying)
      = s.answers code tag w := by
    rcases alone with passes | alone
    · rw [if_pos passes]
    · split
      · rfl
      · exact endAllApplying_alone _ alone
  have went := goOn_answers (left.inOrder pace.order) t code tag w
  simp only [wentOn] at went
  have handed : block args { s.answers code tag w with stops := pace.stops } = (t.answers code tag w, left) := worked
  unfold State.runBlock
  simp only [same, handed, went]
  rfl

/-- A block with an outcome has nothing left to take. -/
@[simp] theorem goOn_ready (s : State) (status : Status) (payload : List Byte) (effect : CompletionEffect) :
    s.goOn (.ready status payload effect) = (s, .ready status payload effect) := rfl

/-- A read that provokes no fence has its outcome at once. -/
@[simp] theorem goOn_claimed_nil (s : State) (next : Next) : s.goOn (claimed [] next) = s.proceed next := rfl

/-- Claims that no stop stands before are all taken (R160). -/
theorem takeClaims_prompt (s : State) (ts : List Task) (now : s.stops = [])
    (keeps : ∀ t x, (State.runClaim t x).stops = t.stops) : s.takeClaims ts = (ts.foldl State.runClaim s, []) := by
  induction ts generalizing s with
  | nil => rfl
  | cons t ts ih =>
    have go : (t.stop?.any fun p => s.stops.contains p) = false := by cases t.stop? <;> simp [now]
    simp only [State.takeClaims, go, Bool.false_eq_true, if_false, List.foldl_cons]
    exact ih (s.runClaim t) ((keeps s t).trans now)

/-- Items that no stop stands before are all taken from the one state (R184). -/
theorem takeItemsOf_prompt (s : State) (rest : List ReadItem) (taken : List (ReadItem × List Byte)) (now : s.stops = []) :
    s.takeItemsOf taken rest = ([], taken ++ rest.map (fun i => (i, s.readItem i))) := by
  induction rest generalizing taken with
  | nil => simp [State.takeItemsOf]
  | cons i rest ih => simp [State.takeItemsOf, now, ih]

/-- Block work that waits is the work of the block of its code (R180). -/
theorem takeWork_answers (s : State) (code tag : Byte) (args : List Byte) (l : Lines) (pace : Pace) :
    (s.answers code tag (.waiting args l pace)).takeWork
      = (s.answers code tag (.waiting args l pace)).runBlock code (blockOf code l) args pace := rfl

/-- What the part does of itself: a channel that has work in progress ends it first (R57), and where nothing waits the
part idles. -/
theorem background_busy (s : State) (a : AxisId) (first : axisIds.find? s.busy = some a) :
    s.background = s.finish a := by
  simp [State.background, first]

theorem background_idle (s : State) (quiet : ∀ a, s.busy a = false) (idle : s.port.state = .idle) :
    s.background = s := by
  have none_ : axisIds.find? s.busy = none := by simp [quiet]
  simp [State.background, State.takeWork, PortState.request?, none_, idle]

/-- A request without a stop whose block leaves its state as an answered state `t` with the outcome in. -/
theorem request_answers (s t : State) (code tag : Byte) (args : List Byte) (block : Handler) (l : Lines) (n : Nat)
    (status : Status) (payload : List Byte) (effect : CompletionEffect) (known : argLength code = some n)
    (len : args.length = n) (short : n ≤ 60) (ready : s.Ready tag)
    (alone : passesApplications code = true ∨ ∀ a, s.applying a = false) (stops : t.stops = [])
    (answered : block args (s.answers code tag (.waiting args l .prompt))
      = (t.answers code tag (.waiting args l .prompt), .ready status payload effect)) :
    s.request code (frameRest code tag args) .prompt block l = t.answers code tag (.ready status payload effect) := by
  have h := request_now s code tag args [] block l n .prompt rfl known len short ready
  rw [List.append_nil] at h
  have now : ({ s with stops := Pace.prompt.stops } : State) = s := by rw [show Pace.prompt.stops = s.stops from
    ready.2.2.2.2.symm]
  have kept : ({ t with stops := s.stops } : State) = t := by rw [ready.2.2.2.2, ← stops]
  rw [h, runBlock_answers s t t code tag _ (.ready status payload effect) _ block args .prompt alone
    (by rw [now]; exact answered) (goOn_ready t status payload effect), kept]

/-- A request without a stop whose block refuses it, or answers without changing its state. -/
theorem request_replies (s : State) (code tag : Byte) (args : List Byte) (block : Handler) (l : Lines) (n : Nat)
    (status : Status) (payload : List Byte) (effect : CompletionEffect) (known : argLength code = some n)
    (len : args.length = n) (short : n ≤ 60) (ready : s.Ready tag)
    (alone : passesApplications code = true ∨ ∀ a, s.applying a = false)
    (answered : block args (s.answers code tag (.waiting args l .prompt))
      = (s.answers code tag (.waiting args l .prompt), .ready status payload effect)) :
    s.request code (frameRest code tag args) .prompt block l = s.answers code tag (.ready status payload effect) :=
  request_answers s s code tag args block l n status payload effect known len short ready alone ready.2.2.2.2 answered

/-- An accepted code that names no request, and one with another length, reach no block (R180). -/
theorem request_unknown (s : State) (code tag : Byte) (args : List Byte) (pace : Pace) (block : Handler) (l : Lines)
    (unknown : argLength code = none) (short : args.length ≤ 60) (ready : s.Ready tag) :
    s.request code (frameRest code tag args) pace block l = s.answers code tag (bare .unknownRequest) := by
  have h := request_of_ready s code tag args [] pace block l short ready
  rw [List.append_nil] at h
  rw [h, State.carryOut, unknown]
  rfl

theorem request_badLength (s : State) (code tag : Byte) (args : List Byte) (pace : Pace) (block : Handler) (l : Lines)
    (n : Nat) (known : argLength code = some n) (len : args.length ≠ n) (short : args.length ≤ 60)
    (ready : s.Ready tag) :
    s.request code (frameRest code tag args) pace block l = s.answers code tag (bare .badLength) := by
  have h := request_of_ready s code tag args [] pace block l short ready
  rw [List.append_nil] at h
  rw [h, State.carryOut, known]
  simp only [len, if_false]
  rfl

end Sys2Proof.Machine
end

