-- ==== Sys2Proof/Laws/Effects.lean ====
section
/-! SUPPORT. What each shared operation of the Sweep Evaluator, the Edit Lists, the Safe-State Controller and the axis
faults can change. `still` is what the work on entries leaves: all but table, lists, outputs, report and channels.
`outside` is what no work of a channel changes. -/

namespace Sys2Proof.Machine

/-- All of the state but the table, the lists, the outputs, the fault report and the channels. -/
def State.still (s : State) :
    ResetPhase × Port × Transaction × Condition × Bool × ReasonSet × ReasonSet × Vector Axis 4 × List StopPoint
      × List Instr :=
  (s.phase, s.port, s.transaction, s.condition, s.stopActive, s.latched, s.mask, s.axes, s.stops, s.pending)

/-- What a channel's work leaves as it is: the phase, the transaction, the level of STOP, the mask, the command's choice
of stop points and the queue. -/
def State.outside (s : State) : ResetPhase × Transaction × Bool × ReasonSet × List StopPoint × List Instr :=
  (s.phase, s.transaction, s.stopActive, s.mask, s.stops, s.pending)

theorem State.outside_of_still {s t : State} (h : t.still = s.still) : t.outside = s.outside := by
  simp only [State.still, State.outside, Prod.mk.injEq] at h ⊢
  tauto

theorem State.axis_of_still {s t : State} (h : t.still = s.still) (a : AxisId) : t.axis a = s.axis a := by
  simp only [State.still, Prod.mk.injEq] at h
  simp only [State.axis, h]

theorem State.port_of_still {s t : State} (h : t.still = s.still) : t.port = s.port := by
  simp only [State.still, Prod.mk.injEq] at h; exact h.2.1

theorem State.stops_of_outside {s t : State} (h : t.outside = s.outside) : t.stops = s.stops := by
  simp only [State.outside, Prod.mk.injEq] at h; exact h.2.2.2.2.1

theorem State.pending_of_outside {s t : State} (h : t.outside = s.outside) : t.pending = s.pending := by
  simp only [State.outside, Prod.mk.injEq] at h; exact h.2.2.2.2.2

/-- A fold of operations that each leave something leaves it. -/
theorem foldl_keeps {α β γ : Type} (g : β → γ) (f : β → α → β) (keeps : ∀ b x, g (f b x) = g b) (xs : List α) (b : β) :
    g (xs.foldl f b) = g b := by
  induction xs generalizing b with
  | nil => rfl
  | cons x xs ih => rw [List.foldl_cons, ih, keeps]

@[simp] theorem setSlot_still (s : State) (h : Nat) (v : Slot) : (s.setSlot h v).still = s.still := rfl
@[simp] theorem setOutput_still (s : State) (o : OutId) (x : Output) : (s.setOutput o x).still = s.still := rfl
@[simp] theorem setList_still (s : State) (a : AxisId) (x : PendingList) : (s.setList a x).still = s.still := rfl
@[simp] theorem setChannel_still (s : State) (a : AxisId) (c : Channel) : (s.setChannel a c).still = s.still := rfl
@[simp] theorem setAxis_outside (s : State) (a : AxisId) (x : Axis) : (s.setAxis a x).outside = s.outside := rfl
@[simp] theorem latch_outside (s : State) (r : ReasonSet) : (s.latch r).outside = s.outside := rfl

/-! ### A channel's turn -/

/-- What the task of a channel leaves, its turn leaves: a stop changes the channel alone. -/
theorem takeVia_still (run : State → Task → State) (keeps : ∀ s t, (run s t).still = s.still) (a : AxisId) (s : State)
    (t : Task) : (s.takeVia run a t).still = s.still := by
  unfold State.takeVia; split
  · rfl
  · exact keeps s t

theorem takeVia_outside (run : State → Task → State) (keeps : ∀ s t, (run s t).outside = s.outside) (a : AxisId)
    (s : State) (t : Task) : (s.takeVia run a t).outside = s.outside := by
  unfold State.takeVia; split
  · rfl
  · exact keeps s t

/-- A command's choice of stop points stands for its own work alone. -/
theorem stopping_outside (s : State) (stops : List StopPoint) (work : State → State)
    (keeps : ∀ t, (work t).outside = t.outside) : (s.stopping stops work).outside = s.outside := by
  have h := keeps { s with stops := stops }
  simp only [State.outside, State.stopping, Prod.mk.injEq] at h ⊢
  tauto

/-! ### The work on entries -/

@[simp] theorem countUpFor_still (s : State) (e : Entry) : (s.countUpFor e).still = s.still := by
  unfold State.countUpFor; cases e.output <;> rfl

@[simp] theorem countDownFor_still (s : State) (e : Entry) : (s.countDownFor e).still = s.still := by
  unfold State.countDownFor; cases e.output <;> rfl

@[simp] theorem endActivity_still (s : State) (h : Nat) : (s.endActivity h).still = s.still := by
  unfold State.endActivity; split
  · split <;> simp
  · rfl

@[simp] theorem hand_still (s : State) (h : Nat) : (s.hand h).still = s.still := by
  unfold State.hand; split <;> rfl

@[simp] theorem reportFault_still (s : State) (cause : FaultCause) (a : AxisId) (p : Nat) (rev : BitVec 16) :
    (s.reportFault cause a p rev).still = s.still := by
  unfold State.reportFault; split <;> rfl

@[simp] theorem runClaim_still (s : State) (t : Task) : (s.runClaim t).still = s.still := by
  unfold State.runClaim; split <;> simp

@[simp] theorem claim_still (a : AxisId) (s : State) (t : Task) : (State.claim a s t).still = s.still :=
  takeVia_still State.runClaim runClaim_still a s t

@[simp] theorem takeHanding_still (h : Nat) (s : State) (a : AxisId) : (State.takeHanding h s a).still = s.still := by
  unfold State.takeHanding; split
  · split <;> simp
  · rfl

@[simp] theorem takeHandings_still (s : State) (h : Nat) : (s.takeHandings h).still = s.still :=
  foldl_keeps State.still _ (takeHanding_still h) axisIds s

@[simp] theorem fenceSlot_still (s : State) (h : Nat) (e : Entry) (log : FireLog) :
    (s.fenceSlot h e log).still = s.still := by
  unfold State.fenceSlot
  simp only
  split <;> simp

@[simp] theorem beginFence_still (s : State) (h : Nat) : (s.beginFence h).1.still = s.still := by
  unfold State.beginFence; split <;> simp

@[simp] theorem fenceFrom_still (a : AxisId) (s : State) (h : Nat) : (s.fenceFrom a h).still = s.still := by
  unfold State.fenceFrom
  rw [foldl_keeps State.still _ (claim_still a), beginFence_still]

@[simp] theorem checkRead_still (s : State) (h : Nat) : (s.checkRead h).1.still = s.still := by
  unfold State.checkRead; split <;> simp

@[simp] theorem takeFences_still (s : State) (o : OutId) : (s.takeFences o).still = s.still :=
  foldl_keeps State.still _ (fun s a => by
    unfold State.takeFence
    simp only
    rw [foldl_keeps State.still _ runClaim_still]; rfl) axisIds s

@[simp] theorem fire_still (a : AxisId) (s : State) (h : Nat) (dir : FireDir) (act : Activity) :
    (s.fire a h dir act).still = s.still := by
  unfold State.fire; split
  · split <;> simp
  · rfl

@[simp] theorem activate_still (a : AxisId) (s : State) (h : Nat) (e : Entry) (dir : FireDir) (timer : Option Nat) :
    (s.activate a h e dir timer).still = s.still := by
  simp [State.activate]

theorem judge_still (a : AxisId) (s : State) (h : Nat) (act : Entry → Run → State)
    (keeps : ∀ e r, (act e r).still = s.still) : (s.judge a h act).still = s.still := by
  unfold State.judge; split
  · rfl
  · split <;> simp [keeps]

@[simp] theorem settleEntry_still (a : AxisId) (s : State) (h : Nat) (e : Entry) (r : Run) :
    (s.settleEntry a h e r).still = s.still := by
  unfold State.settleEntry; split
  · split <;> simp
  · rfl

@[simp] theorem settle_still (a : AxisId) (s : State) (h : Nat) : (s.settle a h).still = s.still :=
  judge_still a s h _ (settleEntry_still a s h)

@[simp] theorem jumpSettle_still (a : AxisId) (s : State) (h : Nat) : (s.jumpSettle a h).still = s.still := by
  unfold State.jumpSettle; split <;> simp

@[simp] theorem jumpDrop_still (a : AxisId) (s : State) (h : Nat) : (s.jumpDrop a h).still = s.still :=
  judge_still a s h _ (fun _ _ => by
    split
    · split <;> simp
    · rfl)

@[simp] theorem invertOnce_still (s : State) (a : AxisId) (o : OutId) : (s.invertOnce a o).still = s.still := by
  unfold State.invertOnce
  simp only
  split <;> rfl

@[simp] theorem crossFire_still (a : AxisId) (s : State) (h : Nat) (e : Entry) (r : Run) (dir : FireDir) :
    (s.crossFire a h e r dir).still = s.still := by
  unfold State.crossFire; split
  · rfl
  · split <;> simp
  · simp
  · simp

@[simp] theorem cross_still (a : AxisId) (s : State) (h : Nat) (dir : FireDir) : (s.cross a h dir).still = s.still :=
  judge_still a s h _ (fun _ _ => by split <;> simp)

@[simp] theorem boundary_still (a : AxisId) (s : State) (h point : Nat) (dir : FireDir) :
    (s.boundary a h point dir).still = s.still :=
  judge_still a s h _ (fun _ _ => by
    split
    · split
      · split <;> simp
      · simp
    · rfl)

/-- The work on one entry changes table, lists, outputs, report and channels alone. -/
@[simp] theorem runEntry_still (a : AxisId) (s : State) (t : Task) : (s.runEntry a t).still = s.still := by
  unfold State.runEntry; split <;> simp

@[simp] theorem takeEntries_still (a : AxisId) (s : State) (ts : List Task) : (s.takeEntries a ts).still = s.still :=
  foldl_keeps State.still _ (takeVia_still _ (runEntry_still a) a) ts s

@[simp] theorem settleAll_still (a : AxisId) (s : State) (hs : List Nat) : (s.settleAll a hs).still = s.still := by
  simp [State.settleAll]

@[simp] theorem settleWindows_still (s : State) (a : AxisId) : (s.settleWindows a).still = s.still :=
  settleAll_still a s _

@[simp] theorem evaluateJump_still (s : State) (a : AxisId) : (s.evaluateJump a).still = s.still := by
  simp [State.evaluateJump]

@[simp] theorem jumpTo_outside (s : State) (a : AxisId) (v : Nat) : (s.jumpTo a v).outside = s.outside :=
  (State.outside_of_still (evaluateJump_still _ a)).trans rfl

@[simp] theorem crossings_still (a : AxisId) (s : State) (point : Nat) (dir : FireDir) :
    (s.crossings a point dir).still = s.still := by
  simp [State.crossings]

@[simp] theorem boundaries_still (a : AxisId) (s : State) (point : Nat) (dir : FireDir) :
    (s.boundaries a point dir).still = s.still := by
  simp [State.boundaries]

@[simp] theorem clearSpent_still (s : State) (h : Nat) : (s.clearSpent h).still = s.still := by
  unfold State.clearSpent; split <;> rfl

/-- Activity that ends silently on an axis changes the waiting silent end of its record, and no other axis (R79). -/
@[simp] theorem silenceAxis_outside (s : State) (a : AxisId) : (s.silenceAxis a).outside = s.outside := by
  simp [State.silenceAxis, foldl_keeps State.outside State.endActivity
    (fun s h => State.outside_of_still (endActivity_still s h))]

/-! ### Lists -/

@[simp] theorem applyItem_still (s : State) (i : Item) : (s.applyItem i).still = s.still := by
  cases i with
  | place h => simp only [State.applyItem, State.applyPlace]; split <;> simp
  | alter h v => simp only [State.applyItem, State.applyAlter]; split <;> simp
  | retire h => simp only [State.applyItem, State.applyRetire]; split <;> simp
  | setLead o lead =>
    simp [State.applyItem, State.applyLead, foldl_keeps State.still State.endActivity endActivity_still]

@[simp] theorem applyNext_still (a : AxisId) (s : State) : (s.applyNext a).still = s.still := by
  unfold State.applyNext; split
  · rfl
  · simp only
    split
    · next i _ _ _ => cases i.handle? <;> simp
    · simp

@[simp] theorem endApplication_outside (s : State) (a : AxisId) (announced : Bool) :
    (s.endApplication a announced).outside = s.outside := by
  unfold State.endApplication
  simp only
  split <;> rfl

/-- The application of a list changes table, lists, outputs, report and channels, and the latched reasons (R120). -/
@[simp] theorem applyClosed_outside (s : State) (a : AxisId) (announced : Bool) :
    (s.applyClosed a announced).outside = s.outside := by
  have items : ((s.list a).items.foldl (fun t _ => if t.busy a then t else t.applyNext a) s).outside = s.outside :=
    State.outside_of_still (foldl_keeps State.still _ (fun t _ => by split <;> simp) _ s)
  unfold State.applyClosed
  simp only
  split
  · split
    · exact items
    · rw [endApplication_outside]; exact items
  · rfl

/-- After an application that has ended its list is empty and open (R125). -/
theorem endApplication_list (s : State) (a : AxisId) (announced : Bool) :
    (s.endApplication a announced).list a = ⟨[], false, (s.list a).change + 1#8⟩ := by
  unfold State.endApplication
  simp only
  split
  · exact State.setList_list_self s a _
  · exact State.setList_list_self s a _

@[simp] theorem settleApplied_still (a : AxisId) (s : State) (items : List Item) :
    (s.settleApplied a items).still = s.still := settleAll_still a s _

/-! ### The safe state -/

@[simp] theorem enterSafe_outside (s : State) : s.enterSafe.outside = s.outside := by
  unfold State.enterSafe; split <;> rfl

@[simp] theorem finishRelease_outside (s : State) : s.finishRelease.outside = s.outside := by
  unfold State.finishRelease; split <;> rfl

@[simp] theorem releaseWhere_outside (s : State) (p : Option AxisId → Bool) :
    (s.releaseWhere p).outside = s.outside := by
  unfold State.releaseWhere; split
  · rw [finishRelease_outside]; rfl
  · rfl

@[simp] theorem releaseAxis_outside (s : State) (a : AxisId) : (s.releaseAxis a).outside = s.outside := by
  unfold State.releaseAxis; split <;> simp

@[simp] theorem beginRelease_outside (s : State) : s.beginRelease.outside = s.outside := by
  unfold State.beginRelease; rw [finishRelease_outside]; rfl

@[simp] theorem rebound_outside (s : State) (o : OutId) : (s.rebound o).outside = s.outside := by
  unfold State.rebound; split
  · rw [finishRelease_outside]; rfl
  · rfl

/-! ### The pieces of work of a channel -/

@[simp] theorem advance_outside (s : State) (a : AxisId) : (s.advance a).outside = s.outside := by
  unfold State.advance; split <;> rfl

@[simp] theorem haltReached_outside (s : State) (a : AxisId) : (s.haltReached a).outside = s.outside := by
  unfold State.haltReached; split <;> rfl

@[simp] theorem dropReference_outside (s : State) (a : AxisId) : (s.dropReference a).outside = s.outside := by
  unfold State.dropReference; split <;> simp

@[simp] theorem runPart_outside (a : AxisId) (s : State) (t : Task) : (s.runPart a t).outside = s.outside := by
  unfold State.runPart; split
  all_goals first | exact State.outside_of_still (by simp) | simp

@[simp] theorem takeParts_outside (a : AxisId) (s : State) (ts : List Task) : (s.takeParts a ts).outside = s.outside :=
  foldl_keeps State.outside _ (takeVia_outside _ (runPart_outside a) a) ts s

@[simp] theorem reachHalted_outside (s : State) (a : AxisId) : (s.reachHalted a).outside = s.outside := by
  simp [State.reachHalted]

@[simp] theorem haltIfDone_outside (s : State) (a : AxisId) : (s.haltIfDone a).outside = s.outside := by
  unfold State.haltIfDone; split <;> simp

@[simp] theorem run_outside (a : AxisId) (s : State) (t : Task) : (s.run a t).outside = s.outside := by
  unfold State.run; split <;> simp

/-- A channel's work leaves the phase, the transaction, STOP, the mask, the stop points and the queue as they are. -/
@[simp] theorem take_outside (a : AxisId) (s : State) (ts : List Task) : (s.take a ts).outside = s.outside :=
  foldl_keeps State.outside _ (takeVia_outside _ (run_outside a) a) ts s

@[simp] theorem resume_outside (s : State) (a : AxisId) : (s.resume a).outside = s.outside :=
  (take_outside a _ _).trans rfl

@[simp] theorem finish_outside (s : State) (a : AxisId) : (s.finish a).outside = s.outside :=
  stopping_outside s [] _ (fun t => resume_outside t a)

@[simp] theorem beginStep_outside (s : State) (a : AxisId) : (s.beginStep a).outside = s.outside := by
  simp only [State.beginStep, take_outside]
  split
  · simp [State.beginWrap, foldl_keeps State.outside State.clearSpent
      (fun s h => State.outside_of_still (clearSpent_still s h))]
  · rfl

@[simp] theorem endApplying_outside (s : State) (a : AxisId) : (s.endApplying a).outside = s.outside := by
  unfold State.endApplying; split <;> simp

@[simp] theorem endAllApplying_outside (s : State) : s.endAllApplying.outside = s.outside :=
  foldl_keeps State.outside _ endApplying_outside axisIds s

/-! ### How the work of a request goes on -/

@[simp] theorem takeClaims_still (s : State) (ts : List Task) : (s.takeClaims ts).1.still = s.still := by
  induction ts generalizing s with
  | nil => rfl
  | cons t ts ih =>
    unfold State.takeClaims; split
    · rfl
    · rw [ih, runClaim_still]

@[simp] theorem retireFenced_still (s : State) (h : Nat) : (s.retireFenced h).1.still = s.still := by
  unfold State.retireFenced; split <;> rfl

@[simp] theorem proceed_outside (s : State) (next : Next) : (s.proceed next).1.outside = s.outside := by
  cases next with
  | reply status payload => rfl
  | retire h => exact State.outside_of_still (retireFenced_still s h)
  | closed a items h retired => exact takeParts_outside a s _

/-- What a request has still to take is work on entries and a channel's work. -/
@[simp] theorem goOn_outside (s : State) (w : Work) : (s.goOn w).1.outside = s.outside := by
  cases w with
  | claiming rest next stops =>
    have claims := State.outside_of_still (takeClaims_still s rest)
    simp only [State.goOn]
    rcases h : s.takeClaims rest with ⟨t, _ | ⟨c, left⟩⟩
    · simp only [h] at claims ⊢; rw [proceed_outside, claims]
    · simpa only [h] using claims
  | channel a next stops =>
    simp only [State.goOn]
    cases s.serving a with
    | true => rfl
    | false => exact proceed_outside s next
  | sampling asked rest taken stops =>
    simp only [State.goOn]
    rcases s.takeItemsOf taken rest with ⟨_ | ⟨i, left⟩, taken⟩ <;> rfl
  | _ => rfl

@[simp] theorem closes_outside (s : State) (a : AxisId) (h : Nat) (retired : Bool) :
    (s.closes a h retired).1.outside = s.outside := by
  unfold State.closes; split
  · exact (takeParts_outside a _ _).trans (finish_outside s a)
  · rfl

/-! ### Axis faults -/

@[simp] theorem faultClaim_outside (a : AxisId) (cause : FaultCause) (tracked : Nat) (later : Bool) (s : State)
    (c : FaultClaim) : (State.faultClaim a cause tracked later s c).outside = s.outside := by
  cases c with
  | silentEnd => simp only [State.faultClaim]; split <;> simp
  | applyList => exact take_outside a s _
  | report => exact State.outside_of_still (reportFault_still s cause a tracked _)
  | attention => rfl
  | safeState => simp only [State.faultClaim, State.faultToSafeState]; split <;> simp

@[simp] theorem takeFault_outside (s : State) (a : AxisId) (cause : FaultCause) (order : FaultOrder) :
    (s.takeFault a cause order).outside = s.outside := by
  unfold State.takeFault
  rw [foldl_keeps State.outside _ (faultClaim_outside a cause _ _)]; rfl

@[simp] theorem axisFault_outside (s : State) (a : AxisId) (cause : FaultCause) (order : FaultOrder) :
    (s.axisFault a cause order).outside = s.outside := by
  unfold State.axisFault; split
  · rw [stopping_outside _ _ _ (fun t => takeFault_outside t a cause order), finish_outside]
  · rfl

@[simp] theorem addCounts_outside (s : State) (a : AxisId) (n : Int) (order : FaultOrder) :
    (s.addCounts a n order).outside = s.outside := by
  unfold State.addCounts
  simp only
  split <;> simp

end Sys2Proof.Machine
end

