-- ==== Sys2Proof/Laws/Channels.lean ====
section
/-! SUPPORT. The work of a channel that has nothing in progress and no stop ahead: every turn carries its task out, so that
a piece of work is the plain sequence of its tasks, and it leaves the channel free again. -/

namespace Sys2Proof.Machine

/-- The stop points ahead, and what is left of the work in progress of the channel of `a`. -/
def State.way (a : AxisId) (s : State) : List StopPoint × List Task := (s.stops, (s.channel a).rest)

/-- The channel of `a` has no work in progress, and none of its work stops. -/
abbrev Free (a : AxisId) (s : State) : Prop := s.way a = ([], [])

theorem free_iff (a : AxisId) (s : State) : Free a s ↔ s.stops = [] ∧ (s.channel a).rest = [] := by
  simp [Free, State.way]

theorem free_of_way {a : AxisId} {s t : State} (same : t.way a = s.way a) (free : Free a s) : Free a t := same.trans free

theorem busy_of_free {a : AxisId} {s : State} (free : Free a s) : s.busy a = false := by
  simp [State.busy, ((free_iff a s).1 free).2]

/-! ### One turn -/

theorem takeVia_free (run : State → Task → State) {a : AxisId} {s : State} (t : Task) (free : Free a s) :
    s.takeVia run a t = run s t := by
  simp [State.takeVia, busy_of_free free, ((free_iff a s).1 free).1]

/-- Behind work that has stopped, a task is left. -/
theorem takeVia_busy (run : State → Task → State) {a : AxisId} {s : State} (t : Task) (busy : s.busy a = true) :
    s.takeVia run a t = s.defer a t := by
  simp [State.takeVia, busy]

/-- At a stop point, a task is left. -/
theorem takeVia_stop (run : State → Task → State) {a : AxisId} {s : State} {t : Task} {p : StopPoint}
    (at_ : t.stop? = some p) (stops : p ∈ s.stops) : s.takeVia run a t = s.defer a t := by
  simp [State.takeVia, at_, stops]

theorem busy_defer (s : State) (a : AxisId) (t : Task) : (s.defer a t).busy a = true := by
  simp [State.defer, State.busy]

/-- Tasks that keep the channel free are carried out one after the other. -/
theorem foldl_takeVia_free (run : State → Task → State) {a : AxisId}
    (keeps : ∀ s t, Free a s → Free a (run s t)) (ts : List Task) (s : State) (free : Free a s) :
    ts.foldl (State.takeVia run a) s = ts.foldl run s ∧ Free a (ts.foldl run s) := by
  induction ts generalizing s with
  | nil => exact ⟨rfl, free⟩
  | cons t ts ih =>
    simp only [List.foldl_cons, takeVia_free run t free]
    exact ih (run s t) (keeps s t free)

/-! ### What leaves the way as it is -/

@[simp] theorem setSlot_way (a : AxisId) (s : State) (h : Nat) (v : Slot) : (s.setSlot h v).way a = s.way a := rfl
@[simp] theorem setOutput_way (a : AxisId) (s : State) (o : OutId) (x : Output) : (s.setOutput o x).way a = s.way a := rfl
@[simp] theorem setList_way (a b : AxisId) (s : State) (l : PendingList) : (s.setList b l).way a = s.way a := rfl
@[simp] theorem setAxis_way (a b : AxisId) (s : State) (x : Axis) : (s.setAxis b x).way a = s.way a := rfl
@[simp] theorem latch_way (a : AxisId) (s : State) (r : ReasonSet) : (s.latch r).way a = s.way a := rfl

@[simp] theorem countUpFor_way (a : AxisId) (s : State) (e : Entry) : (s.countUpFor e).way a = s.way a := by
  unfold State.countUpFor; cases e.output <;> rfl

@[simp] theorem countDownFor_way (a : AxisId) (s : State) (e : Entry) : (s.countDownFor e).way a = s.way a := by
  unfold State.countDownFor; cases e.output <;> rfl

@[simp] theorem endActivity_way (a : AxisId) (s : State) (h : Nat) : (s.endActivity h).way a = s.way a := by
  unfold State.endActivity; split
  · split <;> simp
  · rfl

@[simp] theorem hand_way (a : AxisId) (s : State) (h : Nat) : (s.hand h).way a = s.way a := by
  unfold State.hand; split <;> rfl

@[simp] theorem reportFault_way (a b : AxisId) (s : State) (cause : FaultCause) (p : Nat) (rev : BitVec 16) :
    (s.reportFault cause b p rev).way a = s.way a := by
  unfold State.reportFault; split <;> rfl

@[simp] theorem runClaim_way (a : AxisId) (s : State) (t : Task) : (s.runClaim t).way a = s.way a := by
  unfold State.runClaim; split <;> simp

@[simp] theorem invertOnce_way (a : AxisId) (s : State) (o : OutId) : (s.invertOnce a o).way a = s.way a := by
  unfold State.invertOnce
  simp only
  split
  · rfl
  · simp [State.way]

@[simp] theorem clearSpent_way (a : AxisId) (s : State) (h : Nat) : (s.clearSpent h).way a = s.way a := by
  unfold State.clearSpent; split <;> rfl

@[simp] theorem silenceAxis_way (a b : AxisId) (s : State) : (s.silenceAxis b).way a = s.way a := by
  simp [State.silenceAxis, foldl_keeps (State.way a) State.endActivity (endActivity_way a)]

@[simp] theorem enterSafe_way (a : AxisId) (s : State) : s.enterSafe.way a = s.way a := by
  unfold State.enterSafe; split <;> rfl

@[simp] theorem finishRelease_way (a : AxisId) (s : State) : s.finishRelease.way a = s.way a := by
  unfold State.finishRelease; split <;> rfl

@[simp] theorem releaseAxis_way (a b : AxisId) (s : State) : (s.releaseAxis b).way a = s.way a := by
  unfold State.releaseAxis State.releaseWhere
  split
  · split
    · rw [finishRelease_way]; rfl
    · rfl
  · rfl

@[simp] theorem advance_way (a b : AxisId) (s : State) : (s.advance b).way a = s.way a := by
  unfold State.advance; split <;> rfl

@[simp] theorem haltReached_way (a b : AxisId) (s : State) : (s.haltReached b).way a = s.way a := by
  unfold State.haltReached; split <;> rfl

@[simp] theorem dropReference_way (a b : AxisId) (s : State) : (s.dropReference b).way a = s.way a := by
  unfold State.dropReference; split <;> simp

/-! ### What keeps a free channel free, and what it does then -/

theorem claim_free {a : AxisId} {s : State} (t : Task) (free : Free a s) : State.claim a s t = s.runClaim t :=
  takeVia_free _ t free

/-- No handing waits on a channel that is free, whatever the handle. -/
theorem takeHanding_keepsFree {a : AxisId} (h : Nat) (s : State) (b : AxisId) (free : Free a s) :
    Free a (State.takeHanding h s b) := by
  unfold State.takeHanding
  split
  · next k rest inverted eq =>
    split
    · have ne : a ≠ b := by
        rintro rfl
        have := ((free_iff a s).1 free).2
        rw [eq] at this
        cases this
      refine free_of_way (hand_way a _ h) ?_
      have frees := (free_iff a s).1 free
      exact (free_iff a _).2 ⟨frees.1, by rw [State.setChannel_channel, if_neg (Ne.symm ne)]; exact frees.2⟩
    · exact free
  · exact free

theorem takeHandings_keepsFree {a : AxisId} (h : Nat) (s : State) (free : Free a s) : Free a (s.takeHandings h) := by
  have keeps : ∀ xs : List AxisId, ∀ t, Free a t → Free a (xs.foldl (State.takeHanding h) t) := by
    intro xs
    induction xs with
    | nil => exact fun t f => f
    | cons b xs ih => exact fun t f => ih _ (takeHanding_keepsFree h t b f)
  exact keeps axisIds s free

theorem fenceSlot_keepsFree {a : AxisId} (s : State) (h : Nat) (e : Entry) (log : FireLog) (free : Free a s) :
    Free a (s.fenceSlot h e log) := by
  unfold State.fenceSlot
  refine free_of_way ((setList_way a _ _ _).trans (setSlot_way a _ _ _)) ?_
  split
  · exact takeHandings_keepsFree h s free
  · exact free

theorem beginFence_keepsFree {a : AxisId} {s : State} (h : Nat) (free : Free a s) : Free a (s.beginFence h).1 := by
  unfold State.beginFence; split
  · exact fenceSlot_keepsFree s h _ _ free
  · exact free

/-- The fence by a free channel: its claims, one after the other (R160). -/
theorem fenceFrom_free {a : AxisId} {s : State} (h : Nat) (free : Free a s) :
    s.fenceFrom a h = (s.beginFence h).2.foldl State.runClaim (s.beginFence h).1
      ∧ Free a (s.fenceFrom a h) := by
  have fenced := foldl_takeVia_free State.runClaim (fun s t f => free_of_way (runClaim_way a s t) f) (s.beginFence h).2
    (s.beginFence h).1 (beginFence_keepsFree h free)
  exact ⟨fenced.1, by unfold State.fenceFrom State.claim; rw [fenced.1]; exact fenced.2⟩

/-- A fire is its write, and the handing where notify is set (R72). -/
theorem fire_free {a : AxisId} {s : State} {h : Nat} {e : Entry} {ok : Bool} {r : Run} (dir : FireDir) (act : Activity)
    (live : s.slot h = .live e ok r) (free : Free a s) :
    s.fire a h dir act =
      let written := s.setSlot h (.live e ok (r.fired e (s.axis e.axis).revolution dir act))
      if e.notify then written.hand h else written := by
  simp only [State.fire, live]
  rw [claim_free (a := a) (s := s.setSlot h _) (.hand h) (free_of_way rfl free)]
  rfl

theorem fire_keepsFree {a : AxisId} {s : State} (h : Nat) (dir : FireDir) (act : Activity) (free : Free a s) :
    Free a (s.fire a h dir act) := by
  unfold State.fire
  split
  · simp only
    rw [claim_free (a := a) (s := s.setSlot h _) (.hand h) (free_of_way rfl free)]
    split
    · exact free_of_way (by simp) free
    · exact free_of_way (by simp) free
  · exact free

theorem activate_keepsFree {a : AxisId} {s : State} (h : Nat) (e : Entry) (dir : FireDir) (timer : Option Nat)
    (free : Free a s) : Free a (s.activate a h e dir timer) :=
  fire_keepsFree h dir _ (free_of_way (countUpFor_way a s e) free)

theorem judge_keepsFree {a : AxisId} {s : State} (h : Nat) (act : Entry → Run → State) (free : Free a s)
    (keeps : ∀ e r, Free a (act e r)) : Free a (s.judge a h act) := by
  unfold State.judge
  split
  · exact free
  · split
    · exact keeps _ _
    · exact (fenceFrom_free h free).2

theorem settleEntry_keepsFree {a : AxisId} {s : State} (h : Nat) (e : Entry) (r : Run) (free : Free a s) :
    Free a (s.settleEntry a h e r) := by
  unfold State.settleEntry; split
  · split
    · exact activate_keepsFree h e _ _ free
    · exact free
  · exact free

theorem crossFire_keepsFree {a : AxisId} {s : State} (h : Nat) (e : Entry) (r : Run) (dir : FireDir) (free : Free a s) :
    Free a (s.crossFire a h e r dir) := by
  unfold State.crossFire; split
  · exact free
  · split
    · exact activate_keepsFree h e _ _ free
    · exact fire_keepsFree h dir _ free
  · exact fire_keepsFree h dir _ (free_of_way (invertOnce_way a s _) free)
  · exact fire_keepsFree h dir _ free

/-- The work on one entry leaves a free channel free. -/
theorem runEntry_keepsFree {a : AxisId} (s : State) (t : Task) (free : Free a s) : Free a (s.runEntry a t) := by
  cases t with
  | cross h dir =>
    exact judge_keepsFree h _ free (fun e r => by
      split
      · exact crossFire_keepsFree h e r dir free
      · exact free)
  | boundary h point dir =>
    exact judge_keepsFree h _ free (fun e r => by
      split
      · split
        · split
          · exact activate_keepsFree h e _ _ free
          · exact free
        · exact free_of_way (endActivity_way a s h) free
      · exact free)
  | jumpDrop h =>
    exact judge_keepsFree h _ free (fun e r => by
      split
      · split
        · exact free
        · exact free_of_way (endActivity_way a s h) free
      · exact free)
  | settle h => exact judge_keepsFree h _ free (fun e r => settleEntry_keepsFree h e r free)
  | jumpSettle h =>
    show Free a (s.jumpSettle a h)
    unfold State.jumpSettle
    split
    · exact free
    · exact settleEntry_keepsFree h _ _ free
  | _ => exact free_of_way (runClaim_way a s _) free

/-- Work on several entries is each entry's work, one after the other. -/
theorem takeEntries_free {a : AxisId} (s : State) (ts : List Task) (free : Free a s) :
    s.takeEntries a ts = ts.foldl (State.runEntry a) s ∧ Free a (s.takeEntries a ts) := by
  have h := foldl_takeVia_free (State.runEntry a) (fun s t f => runEntry_keepsFree s t f) ts s free
  exact ⟨h.1, by unfold State.takeEntries; rw [h.1]; exact h.2⟩

theorem clearInverted_way (a : AxisId) (s : State) : (s.setChannel a { s.channel a with inverted := [] }).way a = s.way a := by
  simp [State.way]

theorem applyItem_keepsFree {a : AxisId} (s : State) (i : Item) (free : Free a s) : Free a (s.applyItem i) := by
  cases i with
  | place h =>
    simp only [State.applyItem, State.applyPlace]; split
    · exact free_of_way (setSlot_way a _ _ _) (takeHandings_keepsFree h s free)
    · exact free
  | alter h v => simp only [State.applyItem, State.applyAlter]; split <;> exact free_of_way (by simp) free
  | retire h => simp only [State.applyItem, State.applyRetire]; split <;> exact free_of_way (by simp) free
  | setLead o lead =>
    exact free_of_way (by
      simp [State.applyItem, State.applyLead, foldl_keeps (State.way a) State.endActivity (endActivity_way a)]) free

theorem applyNext_keepsFree {a : AxisId} (s : State) (free : Free a s) : Free a (s.applyNext a) := by
  unfold State.applyNext; split
  · exact free
  · simp only
    split
    · next i _ _ _ =>
      cases i.handle? with
      | none => exact free_of_way (by simp) free
      | some h =>
        exact free_of_way (by simp [Option.elim]) (fenceFrom_free h free).2
    · exact applyItem_keepsFree _ _ (free_of_way (by simp) free)

/-- The application of a closed list by a free channel: its items one after the other, and then its end (R120, R125). -/
theorem applyClosed_free {a : AxisId} (s : State) (announced : Bool) (closed : (s.list a).closed = true)
    (free : Free a s) :
    s.applyClosed a announced
        = ((s.list a).items.foldl (fun t _ => t.applyNext a) s).endApplication a announced := by
  have items : ∀ (xs : List Item) (t : State), Free a t →
      xs.foldl (fun t _ => if t.busy a then t else t.applyNext a) t = xs.foldl (fun t _ => t.applyNext a) t
        ∧ Free a (xs.foldl (fun t _ => t.applyNext a) t) := by
    intro xs
    induction xs with
    | nil => exact fun t f => ⟨rfl, f⟩
    | cons x xs ih =>
      intro t f
      simp only [List.foldl_cons, busy_of_free f]
      exact ih _ (applyNext_keepsFree t f)
  have h := items (s.list a).items s free
  simp only [State.applyClosed, closed, if_true, h.1, busy_of_free h.2]
  rfl

theorem applyClosed_keepsFree {a : AxisId} (s : State) (announced : Bool) (free : Free a s) :
    Free a (s.applyClosed a announced) := by
  by_cases closed : (s.list a).closed = true
  · rw [applyClosed_free s announced closed free]
    have keeps : ∀ (xs : List Item) (t : State), Free a t → Free a (xs.foldl (fun t _ => t.applyNext a) t) := by
      intro xs
      induction xs with
      | nil => exact fun t f => f
      | cons x xs ih => exact fun t f => ih _ (applyNext_keepsFree t f)
    refine free_of_way ?_ (keeps (s.list a).items s free)
    unfold State.endApplication
    simp only
    split <;> simp
  · simp only [State.applyClosed, closed]; exact free

/-- Every part of a piece of work leaves a free channel free. -/
theorem runPart_keepsFree {a : AxisId} (s : State) (t : Task) (free : Free a s) : Free a (s.runPart a t) := by
  cases t with
  | application announced => exact applyClosed_keepsFree s announced free
  | release => exact free_of_way (releaseAxis_way a a s) free
  | advance => exact free_of_way (advance_way a a s) free
  | crossings point dir => exact (takeEntries_free _ _ (free_of_way (clearInverted_way a s) free)).2
  | boundaries point dir => exact (takeEntries_free _ _ (free_of_way (clearInverted_way a s) free)).2
  | settleApplied items => exact (takeEntries_free _ _ free).2
  | silentEnd => exact free_of_way (silenceAxis_way a a s) free
  | haltReached => exact free_of_way (haltReached_way a a s) free
  | _ => exact runEntry_keepsFree s _ free

theorem takeParts_free {a : AxisId} (s : State) (ts : List Task) (free : Free a s) :
    s.takeParts a ts = ts.foldl (State.runPart a) s ∧ Free a (s.takeParts a ts) := by
  have h := foldl_takeVia_free (State.runPart a) (fun s t f => runPart_keepsFree s t f) ts s free
  exact ⟨h.1, by unfold State.takeParts; rw [h.1]; exact h.2⟩

theorem run_keepsFree {a : AxisId} (s : State) (t : Task) (free : Free a s) : Free a (s.run a t) := by
  unfold State.run
  split
  · unfold State.haltIfDone
    split
    · exact (takeParts_free _ _ (free_of_way (by simp) free)).2
    · exact free
  · exact runPart_keepsFree s _ free

/-- A piece of work of a free channel is its tasks, one after the other, and leaves the channel free (R57). -/
theorem take_free {a : AxisId} (s : State) (ts : List Task) (free : Free a s) :
    s.take a ts = ts.foldl (State.run a) s ∧ Free a (s.take a ts) := by
  have h := foldl_takeVia_free (State.run a) (fun s t f => run_keepsFree s t f) ts s free
  exact ⟨h.1, by unfold State.take; rw [h.1]; exact h.2⟩

/-! ### Commands at a channel with no work in progress -/

/-- A command whose work is not to stop, between commands that leave no stop point. -/
theorem stopping_nil (s : State) (work : State → State) (now : s.stops = []) (keeps : (work s).stops = []) :
    s.stopping [] work = work s := by
  have same : ({ s with stops := [] } : State) = s := by rw [← now]
  unfold State.stopping
  rw [same, now, ← keeps]

/-- A channel with no work in progress has nothing to end (R57). -/
theorem finish_quiet {s : State} {a : AxisId} (quiet : (s.channel a).rest = []) : s.finish a = s := by
  have kept : ({ s with stops := [] } : State).setChannel a { s.channel a with rest := [] } = { s with stops := [] } := by
    have same : ({ s.channel a with rest := [] } : Channel) = s.channel a := by rw [← quiet]
    rw [same]
    exact State.setChannel_self { s with stops := [] } a
  show { State.resume { s with stops := [] } a with stops := s.stops } = s
  unfold State.resume
  rw [show State.channel { s with stops := [] } a = s.channel a from rfl, kept, quiet]
  rfl

/-- A step of a free channel: its parts, one after the other (R58). -/
theorem execStep_free {a : AxisId} {s : State} (free : Free a s)
    (moves : (s.axis a).stepping ∧ (s.axis a).backlog ≠ 0) :
    execStep ⟨a, []⟩ s = .next (((s.axis a).stepTasks (s.list a).toApply).foldl (State.run a)
      (if (s.axis a).plan.wrap then s.beginWrap a (s.axis a).plan.dir else s)) := by
  have begun : Free a (if (s.axis a).plan.wrap then s.beginWrap a (s.axis a).plan.dir else s) := by
    split
    · exact free_of_way (by
        simp [State.beginWrap, foldl_keeps (State.way a) State.clearSpent (clearSpent_way a)]) free
    · exact free
  have taken := take_free _ ((s.axis a).stepTasks (s.list a).toApply) begun
  have step : s.beginStep a = ((s.axis a).stepTasks (s.list a).toApply).foldl (State.run a)
      (if (s.axis a).plan.wrap then s.beginWrap a (s.axis a).plan.dir else s) := taken.1
  have stops : (s.beginStep a).stops = [] :=
    (State.stops_of_outside (beginStep_outside s a)).trans ((free_iff a s).1 free).1
  simp only [execStep, busy_of_free free, Bool.false_eq_true, if_false]
  rw [if_pos moves, stopping_nil s _ ((free_iff a s).1 free).1 stops, step]

/-! ### What a request asks of a free channel -/

theorem serving_of_free {a : AxisId} {s : State} (free : Free a s) : s.serving a = false := by
  simp [State.serving, ((free_iff a s).1 free).2]

/-- A request that waits for a channel which ends its work without a stop has its outcome at once (R181). -/
theorem served_free {a : AxisId} {s : State} (free : Free a s) :
    (s.served a).1.goOn (s.served a).2 = (s, bare .done) := by
  have parts : s.takeParts a [.served] = s := (takeParts_free s [.served] free).1
  simp only [State.served, parts, State.goOn, serving_of_free free]
  rfl

/-- A close on a HALTED or FAULTED axis whose channel is free applies the list, settles the applied entries and gives the
list answer, all within the request (R117). -/
theorem closes_free {a : AxisId} {s : State} (h : Nat) (retired : Bool) (applies : (s.axis a).appliesOnClose = true)
    (closed : (s.list a).closed = true) (free : Free a s) :
    (s.closes a h retired).1.goOn (s.closes a h retired).2 =
      (let t := s.applyClosed a false
       let items := (s.list a).items
       let dropped := items.countP t.fencedBy
       (t.settleApplied a items, replied .done
          (t.listAnswer a (some (items.length - dropped, dropped)) h (t.slotStateByte h retired) 0))) := by
  have quiet : s.finish a = s := finish_quiet ((free_iff a s).1 free).2
  have parts : s.takeParts a [.application false, .served] = s.applyClosed a false :=
    (takeParts_free s [.application false, .served] free).1
  have applied := applyClosed_keepsFree s false free
  have settled := takeParts_free (s.applyClosed a false) [.settleApplied (s.list a).items, .served] applied
  have same : (s.applyClosed a false).takeParts a [.settleApplied (s.list a).items, .served]
      = (s.applyClosed a false).settleApplied a (s.list a).items := by
    rw [settled.1, List.foldl_cons, List.foldl_cons, List.foldl_nil]
    simp only [State.runPart, State.runEntry, State.runClaim]
  have free' : Free a ((s.applyClosed a false).settleApplied a (s.list a).items) := same ▸ settled.2
  simp only [State.closes, applies, closed, and_self, if_true, quiet, parts, State.goOn, serving_of_free applied,
    Bool.false_eq_true, if_false, State.proceed, State.settleClosed, same, State.repliesAfter, serving_of_free free']

end Sys2Proof.Machine
end

