-- ==== Sys2Proof/Laws/Slots.lean ====
section
/-! SUPPORT. What the work on one entry does to the slots: its own slot takes the value named, and every other slot
stays. -/

namespace Sys2Proof.Machine

/-- A slot whose entry has gone IDLE. -/
def Slot.silenced : Slot → Slot
  | .live e ok r => .live e ok { r with activity := .idle }
  | v => v

@[simp] theorem countUpFor_slot (s : State) (e : Entry) (k : Nat) : (s.countUpFor e).slot k = s.slot k := by
  unfold State.countUpFor; cases e.output <;> rfl

@[simp] theorem countDownFor_slot (s : State) (e : Entry) (k : Nat) : (s.countDownFor e).slot k = s.slot k := by
  unfold State.countDownFor; cases e.output <;> rfl

@[simp] theorem reportFault_slot (s : State) (cause : FaultCause) (a : AxisId) (p : Nat) (rev : BitVec 16) (k : Nat) :
    (s.reportFault cause a p rev).slot k = s.slot k := by
  unfold State.reportFault; split <;> rfl

/-- The slots after the silent end of one entry. -/
theorem endActivity_slot (s : State) (h k : Nat) :
    (s.endActivity h).slot k = if h = k then (s.slot h).silenced else s.slot k := by
  unfold State.endActivity
  split
  · next e ok r live =>
    split
    · next idle =>
      split
      · next same => subst same; rw [live]; simp [Slot.silenced, ← idle]
      · rfl
    · rw [countDownFor_slot, State.setSlot_slot, live]; rfl
  · next notLive =>
    split
    · next same =>
      subst same
      cases v : s.slot h <;> simp_all [Slot.silenced]
    · rfl

/-- The slots after a handing (R131). -/
theorem hand_slot_ne (s : State) {h k : Nat} (ne : h ≠ k) : (s.hand h).slot k = s.slot k := by
  unfold State.hand; split <;> simp [State.setSlot_slot, ne]

theorem hand_slot_live (s : State) {h : Nat} {e : Entry} {ok : Bool} {r : Run} (live : s.slot h = .live e ok r) :
    (s.hand h).slot h = .live e ok { r with log := r.log.hand } := by
  simp [State.hand, live]

/-- Whether the channel of `a` takes the handing of `h` with its fire: its work has not stopped, and does not stop
there (R131). -/
def State.handsOver (s : State) (a : AxisId) (h : Nat) : Bool := !s.busy a && !s.stops.contains (.handing h)

/-- The slots after a claim of a channel that is the handing of `h` (R131): taken with its fire, or left. -/
theorem claimHand_slot_ne (a : AxisId) (s : State) {h k : Nat} (ne : h ≠ k) :
    (State.claim a s (.hand h)).slot k = s.slot k := by
  unfold State.claim State.takeVia; split
  · rfl
  · exact hand_slot_ne s ne

theorem claimHand_slot_live (a : AxisId) (s : State) {h : Nat} {e : Entry} {ok : Bool} {r : Run}
    (live : s.slot h = .live e ok r) :
    (State.claim a s (.hand h)).slot h
      = .live e ok { r with log := if s.handsOver a h then r.log.hand else r.log } := by
  by_cases waits : (s.busy a || (Task.hand h).stop?.any (fun p => s.stops.contains p)) = true
  · have no : s.handsOver a h = false := by
      simp only [Task.stop?, Option.any, Bool.or_eq_true] at waits
      rcases waits with w | w <;> simp only [State.handsOver, w, Bool.not_true, Bool.false_and, Bool.and_false]
    rw [State.claim, State.takeVia, if_pos waits, no]
    exact live
  · have yes : s.handsOver a h = true := by
      simpa [Task.stop?, State.handsOver] using waits
    rw [State.claim, State.takeVia, if_neg waits, yes]
    exact hand_slot_live s live

/-- The slots after a fire (R72). -/
theorem fire_slot_ne (a : AxisId) (s : State) (dir : FireDir) (act : Activity) {h k : Nat} (ne : h ≠ k) :
    (s.fire a h dir act).slot k = s.slot k := by
  unfold State.fire; split
  · simp only
    split
    · rw [claimHand_slot_ne a _ ne, State.setSlot_slot_ne s _ ne]
    · rw [State.setSlot_slot_ne s _ ne]
  · rfl

theorem fire_slot_live (a : AxisId) (s : State) (dir : FireDir) (act : Activity) {h : Nat} {e : Entry} {ok : Bool}
    {r : Run} (live : s.slot h = .live e ok r) :
    (s.fire a h dir act).slot h =
      .live e ok (fireLeaves r e (s.axis e.axis).revolution dir act (s.handsOver a h)) := by
  simp only [State.fire, live]
  split
  · next asks =>
    rw [claimHand_slot_live a _ (by rw [State.setSlot_slot, if_pos rfl])]
    rw [show (s.setSlot h (.live e ok (r.fired e (s.axis e.axis).revolution dir act))).handsOver a h = s.handsOver a h
      from rfl]
    cases taken : s.handsOver a h
    · simp [Run.fired, fireLeaves]
    · cases p : r.log.notifyPending <;> simp [Run.fired, fireLeaves, FireLog.hand, FireLog.miss, asks, p]
  · next quiet =>
    rw [State.setSlot_slot, if_pos rfl]
    simp [Run.fired, fireLeaves, quiet]

/-- The slots after an entry goes ACTIVE by a fire. -/
theorem activate_slot_ne (a : AxisId) (s : State) (e : Entry) (dir : FireDir) (timer : Option Nat) {h k : Nat}
    (ne : h ≠ k) : (s.activate a h e dir timer).slot k = s.slot k := by
  rw [State.activate, fire_slot_ne a _ dir _ ne, countUpFor_slot]

/-! ### Fences -/

/-- Claims 2 and 3 of a fence change no slot (R160). -/
theorem fenceClaims_slot (e : Entry) (h : Nat) (act : Bool) (p : Nat) (rev : BitVec 16) (k : Nat)
    (take : State → Task → State)
    (keeps : ∀ s t, (∀ h', t ≠ .hand h') → (take s t).slot k = s.slot k) (s : State) :
    ((e.fenceClaims h act p rev).foldl take s).slot k = s.slot k := by
  unfold Entry.fenceClaims
  cases e.output with
  | none => exact keeps s _ (fun _ => Task.noConfusion)
  | some o =>
    exact (keeps (take s (.fenceOutput h o e.kind act)) _ (fun _ => Task.noConfusion)).trans
      (keeps s _ (fun _ => Task.noConfusion))

theorem runClaim_slot (s : State) (t : Task) (k : Nat) (other : ∀ h, t ≠ .hand h) : (s.runClaim t).slot k = s.slot k := by
  cases t with
  | hand h => exact absurd rfl (other h)
  | fenceReport h a p rev => exact reportFault_slot s _ a p rev k
  | _ => rfl

theorem claim_slot (a : AxisId) (s : State) (t : Task) (k : Nat) (other : ∀ h, t ≠ .hand h) :
    (State.claim a s t).slot k = s.slot k := by
  unfold State.claim State.takeVia; split
  · rfl
  · exact runClaim_slot s t k other

/-- The slots after the handings of `h` are taken: `h` alone changes, and not while it is STAGED (R131). -/
theorem takeHandings_slot_ne (s : State) {h k : Nat} (ne : h ≠ k) : (s.takeHandings h).slot k = s.slot k :=
  foldl_keeps (fun t : State => t.slot k) (State.takeHanding h) (fun t a => by
    unfold State.takeHanding
    split
    · split
      · exact hand_slot_ne _ ne
      · rfl
    · rfl) axisIds s

/-- Claim 1 of a fence writes its slot and no other (R160). -/
theorem fenceSlot_slot (s : State) (h k : Nat) (e : Entry) (log : FireLog) :
    (s.fenceSlot h e log).slot k = if h = k then .fenced e false log else s.slot k := by
  unfold State.fenceSlot
  simp only [State.setList_slot, State.setSlot_slot]
  split
  · rfl
  · next ne =>
    split
    · exact takeHandings_slot_ne s ne
    · rfl

/-- The slots after claim 1 of a fence are the slots after the fence (R160). -/
theorem beginFence_slot (s : State) (h k : Nat) :
    (s.beginFence h).1.slot k =
      match (s.slot h).toFence with
      | some (e, _, log) => if h = k then .fenced e false log else s.slot k
      | none => s.slot k := by
  unfold State.beginFence
  cases (s.slot h).toFence with
  | none => rfl
  | some p => exact fenceSlot_slot s h k p.1 p.2.2

/-- What follows claim 1 of a fence, taken by `take`, writes no slot (R160). -/
theorem beginFence_claims_slot (take : State → Task → State) (s t : State) (h k : Nat)
    (keeps : ∀ s t, (∀ h', t ≠ .hand h') → (take s t).slot k = s.slot k) :
    ((s.beginFence h).2.foldl take t).slot k = t.slot k := by
  unfold State.beginFence
  cases (s.slot h).toFence with
  | none => rfl
  | some p => exact fenceClaims_slot p.1 h p.2.1 _ _ k take keeps t

/-- The slots after a fence by a channel, wherever it stops (R160). -/
theorem fenceFrom_slot (a : AxisId) (s : State) (h k : Nat) :
    (s.fenceFrom a h).slot k = (s.beginFence h).1.slot k :=
  beginFence_claims_slot (State.claim a) s _ h k (fun s t other => claim_slot a s t k other)

theorem beginFence_slot_ne (s : State) {h k : Nat} (ne : h ≠ k) : (s.beginFence h).1.slot k = s.slot k := by
  rw [beginFence_slot]; split <;> simp [ne]

theorem fenceFrom_slot_ne (a : AxisId) (s : State) {h k : Nat} (ne : h ≠ k) : (s.fenceFrom a h).slot k = s.slot k :=
  (fenceFrom_slot a s h k).trans (beginFence_slot_ne s ne)

theorem fenceFrom_slot_live (a : AxisId) (s : State) {h : Nat} {e : Entry} {ok : Bool} {r : Run}
    (live : s.slot h = .live e ok r) : (s.fenceFrom a h).slot h = .fenced e false r.log := by
  rw [fenceFrom_slot, beginFence_slot, live]
  simp [Slot.toFence]

theorem checkRead_slot_ne (s : State) {h k : Nat} (ne : h ≠ k) : (s.checkRead h).1.slot k = s.slot k := by
  unfold State.checkRead; split
  · exact beginFence_slot_ne s ne
  · rfl

/-! ### The work on one entry touches no other slot -/

theorem judge_slot_ne (a : AxisId) (s : State) (act : Entry → Run → State) {h k : Nat} (ne : h ≠ k)
    (keeps : ∀ e r, (act e r).slot k = s.slot k) : (s.judge a h act).slot k = s.slot k := by
  unfold State.judge; split
  · rfl
  · split
    · exact keeps _ _
    · exact fenceFrom_slot_ne a s ne

theorem endActivity_slot_ne (s : State) {h k : Nat} (ne : h ≠ k) : (s.endActivity h).slot k = s.slot k := by
  rw [endActivity_slot, if_neg ne]

theorem settleEntry_slot_ne (a : AxisId) (s : State) (e : Entry) (r : Run) {h k : Nat} (ne : h ≠ k) :
    (s.settleEntry a h e r).slot k = s.slot k := by
  unfold State.settleEntry; split
  · split
    · exact activate_slot_ne a s e _ _ ne
    · rfl
  · rfl

theorem invertOnce_slot (s : State) (a : AxisId) (o : OutId) (k : Nat) : (s.invertOnce a o).slot k = s.slot k := by
  unfold State.invertOnce
  simp only
  split <;> rfl

theorem crossFire_slot_ne (a : AxisId) (s : State) (e : Entry) (r : Run) (dir : FireDir) {h k : Nat} (ne : h ≠ k) :
    (s.crossFire a h e r dir).slot k = s.slot k := by
  unfold State.crossFire; split
  · rfl
  · split
    · exact activate_slot_ne a s e dir _ ne
    · exact fire_slot_ne a s dir _ ne
  · rw [fire_slot_ne a _ dir _ ne, invertOnce_slot]
  · exact fire_slot_ne a s dir _ ne

/-- The handle of a task on a single entry. -/
def Task.handle? : Task → Option Nat
  | .hand h | .fenceOutput h _ _ _ | .fenceReport h _ _ _ | .cross h _ | .boundary h _ _ | .jumpDrop h | .settle h
  | .jumpSettle h => some h
  | _ => none

/-- The work on one entry changes no other slot. -/
theorem runEntry_slot_ne (a : AxisId) (s : State) (t : Task) {k : Nat} (ne : t.handle? ≠ some k) :
    (s.runEntry a t).slot k = s.slot k := by
  cases t with
  | hand h => exact hand_slot_ne s (by simpa [Task.handle?] using ne)
  | fenceReport h b p rev => exact reportFault_slot s _ b p rev k
  | cross h dir =>
    have ne : h ≠ k := by simpa [Task.handle?] using ne
    exact judge_slot_ne a s _ ne (fun e r => by
      split
      · exact crossFire_slot_ne a s e r dir ne
      · rfl)
  | boundary h point dir =>
    have ne : h ≠ k := by simpa [Task.handle?] using ne
    exact judge_slot_ne a s _ ne (fun e r => by
      split
      · split
        · split
          · exact activate_slot_ne a s e _ _ ne
          · rfl
        · exact endActivity_slot_ne s ne
      · rfl)
  | jumpDrop h =>
    have ne : h ≠ k := by simpa [Task.handle?] using ne
    exact judge_slot_ne a s _ ne (fun e r => by
      split
      · split
        · rfl
        · exact endActivity_slot_ne s ne
      · rfl)
  | settle h =>
    have ne : h ≠ k := by simpa [Task.handle?] using ne
    exact judge_slot_ne a s _ ne (fun e r => settleEntry_slot_ne a s e r ne)
  | jumpSettle h =>
    have ne : h ≠ k := by simpa [Task.handle?] using ne
    show (s.jumpSettle a h).slot k = s.slot k
    unfold State.jumpSettle
    split
    · rfl
    · exact settleEntry_slot_ne a s _ _ ne
  | _ => rfl

/-- Work on several entries changes no slot it does not name. -/
theorem takeEntries_slot_ne (a : AxisId) (ts : List Task) (s : State) {k : Nat} (ne : ∀ t ∈ ts, t.handle? ≠ some k) :
    (s.takeEntries a ts).slot k = s.slot k := by
  unfold State.takeEntries
  induction ts generalizing s with
  | nil => rfl
  | cons t ts ih =>
    rw [List.foldl_cons, ih _ (fun u m => ne u (List.mem_cons_of_mem t m))]
    unfold State.takeVia
    split
    · rfl
    · exact runEntry_slot_ne a s t (ne t List.mem_cons_self)

theorem clearSpent_slot_ne (s : State) {h k : Nat} (ne : h ≠ k) : (s.clearSpent h).slot k = s.slot k := by
  unfold State.clearSpent; split
  · exact State.setSlot_slot_ne s _ ne
  · rfl

end Sys2Proof.Machine
end

