-- ==== Sys2Proof/Tests/Slice0.lean ====
section
/-! SUPPORT. The model's own tests: the refused terms of WellFormed, the worked values of the manual, one or two small
steps per command, and for every statement states and operands that meet its hypotheses, clause by clause. -/

/-- A request with this tag is accepted, and no channel has work in progress. -/
def Sys2Proof.Machine.State.ReadyQuiet (s : Sys2Proof.Machine.State) (tag : Sys2Proof.Byte) : Bool :=
  decide (s.ReadyAlone tag ∧ ∀ a, s.busy a = false)

namespace Sys2Proof.Tests

open Sys2Proof.Machine

-- the theorems are checked one after the other: side by side they ask for more threads than a small machine has
set_option Elab.async false

/-! ### The bench -/

/-- The state a command leaves. -/
def after (c : Instr) (s : State) : State :=
  match exec c s with
  | .next t => t
  | .fault _ | .refused _ => s

/-- The state that a request with tag 11h leaves. -/
def send (code : Byte) (args : List Byte) (s : State) : State :=
  after (requestCommand code (frameRest code 0x11#8 args) ⟨false, false, false⟩ .prompt) s

/-- The block works after the acceptance. -/
abbrev later : Pace := ⟨true, [], []⟩

/-- The state that a request with tag 11h leaves whose work stops before these claims. -/
def sendStopping (code : Byte) (args : List Byte) (stops : List StopPoint) (s : State) : State :=
  after (requestCommand code (frameRest code 0x11#8 args) ⟨false, false, false⟩ ⟨false, stops, []⟩) s

/-- The outcome of the executing request, if it is in. -/
def reply (s : State) : Option (Status × List Byte) :=
  match s.port.state with
  | .executing ⟨_, _, .ready status payload _⟩ => some (status, payload)
  | _ => none

/-- An axis with the fields that the tests vary. -/
def axisAt (state : AxisState) (source : Source) (modulus : Nat) (referenced : Bool) (position : Nat)
    (backlog : Int) : Axis :=
  { Axis.reset with
    state := state, source := source, modulus := modulus, referenced := referenced, position := position
    backlog := backlog, filter := 0#8 }

/-- A serving part in NORMAL, no output held, with AX0 as given; OUT0 is LEVEL and OUT1 TOGGLE, both bound to AX0. -/
def bench (x : Axis) : State :=
  let free : Output := { Output.reset with safeHold := false }
  ((({ State.reset with
      phase := .serving, condition := .normal, outputs := Vector.replicate 32 free }).setAxis 0 x).setOutput 0
    { free with binding := some 0 }).setOutput 1 { free with binding := some 0, drive := .toggle }

/-- A WINDOW of AX0 on OUT0. -/
def windowEntry (on off : Nat) (once notify : Bool) : Entry := ⟨0, on, .window 0 off, once, notify, 0#16⟩

/-- A PULSE of AX0 on OUT0 of 1,000 µs. -/
def pulseEntry (on : Nat) (q : Qualifier) : Entry := ⟨0, on, .pulse 0 1000 q, false, false, 0#16⟩

/-- A MARK of AX0. -/
def markEntry (on : Nat) : Entry := ⟨0, on, .mark .either, false, true, 7#16⟩

/-- The run-time fields of an ACTIVE entry that has never fired. -/
def activeRun (timer : Option Nat) : Run := ⟨.active timer, false, FireLog.fresh⟩

/-- A running ENCODER axis of 400 counts at position 99. -/
def runner : Axis := axisAt .running .encoder 400 true 99 1

/-- The part of most tests. -/
def plant : State := bench runner

/-! ### Ill-formed terms are refused -/

theorem test_wf_known_code : (Instr.unknownRequest 0x01#8 [0x05#8, 0#8, 0x2A#8]).wf = false := by decide +kernel
theorem test_wf_poll_code : (Instr.unknownRequest 0#8 []).wf = false := by decide +kernel
theorem test_wf_break_bytes : (Instr.unknownRequest 0xFF#8 (List.replicate 7 0xFF#8)).wf = false := by decide +kernel
theorem test_wf_seven_ff : (Instr.unknownRequest 0xFF#8 (List.replicate 6 0xFF#8)).wf = true := by decide +kernel
theorem test_wf_claim_twice :
    (Instr.encoderCount 0 true true 1 ⟨[.report, .report], false, []⟩).wf = false := by decide +kernel
theorem test_wf_index_claim_twice :
    (Instr.indexEvent 0 1 ⟨[.attention, .attention], true, []⟩).wf = false := by decide +kernel
theorem test_wf_line_claim_twice :
    (Instr.recognizedLineChange 0 ⟨true, true, false⟩ 1 ⟨[.safeState, .safeState], true, []⟩).wf = false := by decide +kernel
theorem test_wf_turn_twice :
    (Instr.rateInterval [(2, FaultOrder.manual), (2, FaultOrder.manual)]).wf = false := by decide +kernel
theorem test_wf_turn_claim_twice :
    (Instr.rateInterval [(2, ⟨[.applyList, .applyList], false, []⟩)]).wf = false := by decide +kernel

/-! ### The manual's frame examples (10.3) -/

theorem test_crc_nine_digits :
    crc8 [0x31#8, 0x32#8, 0x33#8, 0x34#8, 0x35#8, 0x36#8, 0x37#8, 0x38#8, 0x39#8] = 0xF4#8 := by decide +kernel
theorem test_nop_frame : frameRest 0x01#8 0x05#8 [] = [0x05#8, 0x00#8, 0x2A#8] := by decide +kernel

/-! ### Port commands and reset -/

theorem test_first_frame_after_reset :
    (after .outgoingFrame (after .portServiceDelayEnd
      (after (.endOfReset (Vector.replicate 4 ⟨false, false, false⟩) false) State.reset))).transaction
      = .served [0x00#8, 0x01#8, 0x00#8, 0x00#8, 0x00#8, 0x16#8] := by decide +kernel

theorem test_end_of_reset_loads_levels :
    let t := after (.endOfReset (Vector.replicate 4 ⟨true, false, true⟩) true) State.reset
    t.phase = .delay ∧ t.stopActive = true ∧ (t.axis 3).lines = ⟨true, false, true⟩ ∧ t.condition = .safe := by
  decide +kernel

theorem test_service_delay_end :
    (after .portServiceDelayEnd { State.reset with phase := .delay }).phase = .serving := by decide +kernel

theorem test_device_reset :
    after .deviceReset { plant with transaction := .served [] } = { State.reset with transaction := .unserved } := by
  decide +kernel

theorem test_poll_ends_its_transaction :
    after (.poll [0#8, 7#8]) { plant with transaction := .served [] } = plant := by decide +kernel

theorem test_break_drains :
    (after (.portBreak (List.replicate 7 0xFF#8)) (send 0x01#8 [] plant)).port
      = ⟨.draining ⟨0x01#8, 0x11#8, bare .done⟩, none, none, ⟨false, false, false⟩⟩ := by decide +kernel

theorem test_bare_transaction_is_over :
    after .outgoingFrame { plant with transaction := .served [1#8] } = plant := by decide +kernel

theorem test_transactions_are_sorted_by_their_bytes :
    let l : Lines := ⟨false, false, false⟩
    commandOfBytes [] l .prompt = .outgoingFrame
      ∧ commandOfBytes [0#8, 0xFF#8] l .prompt = .poll [0xFF#8]
      ∧ commandOfBytes (List.replicate 9 0xFF#8) l .prompt = .portBreak [0xFF#8]
      ∧ commandOfBytes (List.replicate 7 0xFF#8) l .prompt = .unknownRequest 0xFF#8 (List.replicate 6 0xFF#8)
      ∧ commandOfBytes [0x11#8, 4#8] l .prompt = .runAxis ⟨[4#8], .prompt⟩ := by decide +kernel

theorem test_misnamed_break_is_a_break :
    after (.unknownRequest 0xFF#8 (List.replicate 7 0xFF#8)) (send 0x01#8 [] plant)
      = after (.portBreak []) (send 0x01#8 [] plant) := by decide +kernel

theorem test_misnamed_poll_is_a_poll :
    after (.unknownRequest 0x00#8 [1#8, 2#8]) { plant with transaction := .served [] } = plant := by decide +kernel

/-- The accepted PLACE of 11.5: nothing is STAGED until its block works. -/
theorem test_accepted_place_may_wait :
    let bytes := [0#8, 0#8, 0#8, 0#8, 50#8, 0#8, 150#8, 0#8, 0#8, 0#8, 0#8, 1#8, 0#8, 0#8, 0#8]
    let t := after (.place ⟨frameRest 0x30#8 0x11#8 bytes, later⟩) plant
    t.countIn .staged = 0 ∧ t.port.state = .executing ⟨0x30#8, 0x11#8, .waiting bytes ⟨false, false, false⟩ later⟩
      ∧ t.takeWork.countIn .staged = 1 ∧ t.background = t.takeWork := by decide +kernel

theorem test_completion_takes_the_waiting_work :
    let t := after (.runAxis ⟨frameRest 0x11#8 0x11#8 [0#8], later⟩) (bench (axisAt .halted .rate 400 true 0 0))
    let u := after .requestCompletion t
    (t.axis 0).state = .halted ∧ (u.axis 0).state = .running ∧ u.port.slot = some ⟨0x11#8, .done, []⟩ := by
  decide +kernel

theorem test_unknown_request : reply (send 0x7F#8 [1#8] plant) = some (.unknownRequest, []) := by decide +kernel

theorem test_completion_stores_the_response :
    let t := after .requestCompletion (send 0x01#8 [] plant)
    t.port.slot = some ⟨0x11#8, .done, []⟩ ∧ t.latched = reasonRequestDone := by decide +kernel

theorem test_nop_with_tag_five :
    (after (.nop ⟨[0x05#8, 0x00#8, 0x2A#8, 0x00#8], .prompt⟩) plant).port.lastTag = some 0x05#8 := by decide +kernel

theorem test_nop_with_an_argument : reply (send 0x01#8 [0#8] plant) = some (.badLength, []) := by decide +kernel

theorem test_read_status_after_reset :
    reply (send 0x02#8 [] { State.reset with phase := .serving }) = some (.done,
      [1#8, 0#8, 0x3F#8, 0#8, 0#8, 0#8, 2#8, 0#8, 0#8, 0#8, 0#8, 0#8, 0#8, 0#8, 0#8, 0#8, 0#8, 0#8,
        0#8, 0#8, 0#8, 0#8, 0x34#8, 1#8]) := by decide +kernel

theorem test_ack_attention :
    (after .requestCompletion (send 0x03#8 [0x14#8] { plant with latched := 0b0110100#7 })).latched
      = 0b1100000#7 := by decide +kernel

theorem test_set_attention_mask :
    (after .requestCompletion (send 0x04#8 [0x7F#8] plant)).mask = 0b1111111#7 := by decide +kernel

/-! ### Axis requests -/

theorem test_config_axis_first :
    (after (.configAxis ⟨frameRest 0x10#8 0x11#8
      [1#8, 0#8, 0#8, 0#8, 0x0E#8, 0x10#8, 1#8, 0#8, 9#8, 5#8, 1#8, 20#8, 0#8], .prompt⟩ ⟨true, false, true⟩) plant).axis 1
      = { Axis.reset with
          state := .halted, indexPoint := some 9, tolerance := 5#8, invert := true, filter := 20#8
          faultAction := .passive, lines := ⟨true, false, true⟩ } := by decide +kernel

theorem test_config_axis_small_modulus :
    reply (send 0x10#8 [1#8, 0#8, 0#8, 0#8, 0#8, 15#8, 0#8, 0#8, 0#8, 5#8, 1#8, 20#8, 0#8] plant)
      = some (.badValue, []) := by decide +kernel

theorem test_run_axis :
    ((send 0x11#8 [0#8] (bench (axisAt .halted .rate 400 true 0 0))).axis 0).state = .running := by decide +kernel

theorem test_run_faulted_axis :
    reply (send 0x11#8 [0#8] (bench (axisAt .faulted .rate 400 true 0 0))) = some (.wrongState, []) := by
  decide +kernel

theorem test_halt_axis_at_once :
    let t := send 0x12#8 [0#8] (bench (axisAt .running .encoder 400 true 5 0))
    t.axis 0 = axisAt .halted .encoder 400 false 5 0 ∧ reply t = some (.done, []) := by decide +kernel

theorem test_halt_axis_waits :
    let t := send 0x12#8 [0#8] (bench (axisAt .running .stepped 400 true 90 600))
    (t.axis 0).state = .halting ∧ t.port.state = .executing ⟨0x12#8, 0x11#8, .halting 0⟩ := by decide +kernel

/-- The jump of 3.14, on AX0 and OUT0. -/
theorem test_set_position_jump :
    let s := ((((bench (axisAt .running .encoder 3600 true 500 2)).setOutput 0
      { (plant.output 0) with windowCount := 1 }).setSlot 30 (.live (windowEntry 400 700 false false) true
        (activeRun none))).setSlot 31 (.live (windowEntry 1000 1200 false false) true Run.fresh)).setSlot 32
        (.live (windowEntry 1050 1300 true false) true ⟨.idle, true, FireLog.fresh⟩)
    let t := send 0x13#8 [0#8, 0x04#8, 0x4E#8] s
    (t.axis 0).position = 1100 ∧ (t.output 0).windowCount = 1
      ∧ t.slot 30 = .live (windowEntry 400 700 false false) true Run.fresh
      ∧ t.slot 31 = .live (windowEntry 1000 1200 false false) true
          ⟨.active none, false, ⟨1#16, some ⟨0#16, .none⟩, false, 0⟩⟩
      ∧ t.slot 32 = s.slot 32 := by decide +kernel

theorem test_move_axis :
    ((send 0x14#8 [0#8, 0x03#8, 0xE8#8] (bench (axisAt .running .stepped 400 true 390 0))).axis 0).backlog = 1000 := by
  decide +kernel

theorem test_move_axis_refused :
    reply (send 0x14#8 [0#8, 0#8, 40#8] (bench (axisAt .running .stepped 400 true 0 990)))
      = some (.backlogFull, []) := by decide +kernel

theorem test_set_rate :
    ((send 0x15#8 [0#8, 0xFF#8, 0xFF#8, 0xCF#8, 0x2C#8] (bench (axisAt .halted .rate 400 true 0 0))).axis 0).rate
      = -12500 := by decide +kernel

theorem test_set_rate_out_of_range :
    reply (send 0x15#8 [0#8, 0#8, 0x07#8, 0xA1#8, 0x21#8] (bench (axisAt .halted .rate 400 true 0 0)))
      = some (.badValue, []) := by decide +kernel

theorem test_read_axis_after_reset :
    reply (send 0x16#8 [2#8] plant) = some (.done,
      [0#8, 0#8, 0#8, 0x0E#8, 0x10#8, 0#8, 0#8, 0#8, 0#8, 0#8, 0#8, 0#8, 0#8, 4#8, 0#8, 10#8, 1#8,
        0#8, 0#8, 0#8, 0#8, 0#8, 0#8, 0#8, 0#8, 0#8, 0#8, 0#8, 0#8, 0#8]) := by decide +kernel

/-! ### Output requests -/

theorem test_config_output :
    (send 0x20#8 [3#8, 0#8, 1#8, 1#8, 2#8, 1#8] plant).output 3
      = { (plant.output 3) with
          binding := some 0, drive := .toggle, polarity := .activeLow, safeLevel := .hold, toggleInitial := true
          latch := true } := by decide +kernel

theorem test_config_output_off_axis :
    reply (send 0x20#8 [3#8, 1#8, 0#8, 0#8, 0#8, 0#8] plant) = some (.wrongState, []) := by decide +kernel

theorem test_set_output_mode_isolated :
    let s := plant.setOutput 0 { (plant.output 0) with polarity := .activeLow }
    let t := send 0x21#8 [0#8, 3#8] s
    ((t.output 0).mode, (t.output 0).held) = (.isolated, true) := by decide +kernel

theorem test_clear_output_fault :
    ((send 0x22#8 [0#8] (plant.setOutput 0 { (plant.output 0) with faultHold := true })).output 0).faultHold = false := by
  decide +kernel

theorem test_clear_output_fault_refused :
    reply (send 0x22#8 [0#8] (plant.setSlot 4 (.fenced (windowEntry 1 2 false false) false FireLog.fresh)))
      = some (.hasDependents, []) := by decide +kernel

theorem test_read_output :
    reply (send 0x23#8 [0#8] (plant.setOutput 0 { (plant.output 0) with lead := -2, windowCount := 1 }))
      = some (.done, [0#8, 0#8, 0#8, 0#8, 0#8, 0#8, 0#8, 0xFF#8, 0xFE#8, 0#8, 1#8, 0#8, 0#8, 0#8, 0#8, 0#8, 0#8,
          1#8, 1#8, 0#8, 0#8, 0#8, 0#8]) := by decide +kernel

/-! ### Edits -/

/-- The close on a halted axis of 5.11. -/
theorem test_place_and_close_on_halted_axis :
    let t := send 0x30#8 [0#8, 0#8, 0#8, 0#8, 50#8, 0#8, 150#8, 0#8, 0#8, 0#8, 0#8, 1#8, 0#8, 0#8, 1#8]
      (bench (axisAt .halted .stepped 400 true 100 0))
    reply t = some (.done, [0#8, 0#8, 0#8, 2#8, 1#8, 1#8, 0#8, 0#8, 0#8, 0#8, 0#8])
      ∧ t.slot 0 = .live (windowEntry 50 150 false true) true
          ⟨.active none, false, ⟨1#16, some ⟨0#16, .none⟩, true, 0⟩⟩
      ∧ (t.output 0).windowCount = 1 ∧ t.notifySet = [0] ∧ t.latched = 0#7 := by decide +kernel

theorem test_place_wrong_drive :
    reply (send 0x30#8 [0#8, 0#8, 1#8, 0#8, 50#8, 0#8, 150#8, 0#8, 0#8, 0#8, 0#8, 1#8, 0#8, 0#8, 0#8] plant)
      = some (.mismatch, []) := by decide +kernel

/-- The first and third edits of 5.9, merged in one item. -/
theorem test_alter_merges :
    let s := (plant.setSlot 5 (.live (windowEntry 10 20 false false) true Run.fresh)).setList 0
      ⟨[.alter 5 ⟨some 120, none, none, none, none, none, none⟩], false, 1#8⟩
    let t := send 0x31#8 [0#8, 5#8, 2#8, 0#8, 0#8, 1#8, 0x72#8, 0#8, 0#8, 0#8, 0#8, 0#8, 0#8, 0#8, 0#8] s
    t.list 0 = ⟨[.alter 5 ⟨some 120, some 370, none, none, none, none, none⟩], false, 2#8⟩ := by decide +kernel

theorem test_alter_of_a_retiring_entry :
    let s := (plant.setSlot 8 (.live (pulseEntry 10 .either) true Run.fresh)).setList 0 ⟨[.retire 8], false, 5#8⟩
    reply (send 0x31#8 [0#8, 8#8, 0x40#8, 0#8, 0#8, 0#8, 0#8, 0#8, 0#8, 0#8, 0#8, 0#8, 0#8, 7#8, 0#8] s)
      = some (.entryRetiring, []) := by decide +kernel

theorem test_retire_replaces_an_alter :
    let s := (plant.setSlot 5 (.live (windowEntry 10 20 false false) true Run.fresh)).setList 0
      ⟨[.alter 5 ⟨some 120, none, none, none, none, none, none⟩, .setLead 0 3], false, 5#8⟩
    (send 0x32#8 [0#8, 5#8, 0#8] s).list 0 = ⟨[.retire 5, .setLead 0 3], false, 6#8⟩ := by decide +kernel

theorem test_retire_fenced :
    let t := send 0x32#8 [0#8, 4#8, 0#8] (plant.setSlot 4 (.fenced (markEntry 1) false ⟨1#16, none, true, 0⟩))
    (t.slot 4).lifecycle = .unread ∧ reply t = some (.done, [0#8, 0#8, 0#8, 0#8, 0#8, 0#8, 0#8, 0#8, 4#8, 3#8, 0#8]) := by
  decide +kernel

theorem test_set_lead :
    (send 0x33#8 [0#8, 0#8, 10#8, 1#8] plant).list 0 = ⟨[.setLead 0 10], true, 1#8⟩ := by decide +kernel

theorem test_set_lead_unbound : reply (send 0x33#8 [9#8, 0#8, 10#8, 0#8] plant) = some (.mismatch, []) := by
  decide +kernel

theorem test_close_list :
    ((send 0x34#8 [0#8] (plant.setList 0 ⟨[.setLead 0 10], false, 1#8⟩)).list 0).closed = true := by decide +kernel

theorem test_close_empty_list : reply (send 0x34#8 [0#8] plant) = some (.nothingPending, []) := by decide +kernel

/-- The first order of 5.10. -/
theorem test_discard :
    let t := send 0x35#8 [0#8] ((plant.setSlot 14 (.staged (markEntry 1) true)).setList 0 ⟨[.place 14], true, 5#8⟩)
    t.slot 14 = .free ∧ t.list 0 = ⟨[], false, 6#8⟩
      ∧ reply t = some (.done, [0#8, 0#8, 0#8, 6#8, 0#8, 0#8, 0#8, 0#8, 0#8, 0#8, 1#8]) := by decide +kernel

theorem test_read_pending :
    reply (send 0x36#8 [0#8, 1#8] (plant.setList 0 ⟨[.retire 3, .setLead 1 (-2)], true, 5#8⟩))
      = some (.done, [0#8, 1#8, 2#8, 5#8, 1#8, 4#8, 1#8, 0#8, 0#8, 0#8, 0#8, 1#8, 0#8, 0xFF#8, 0xFE#8]
          ++ List.replicate 9 0#8) := by decide +kernel

/-! ### Table reads -/

/-- The record of the retired MARK of 1.7. -/
theorem test_read_entry_unread :
    reply (send 0x38#8 [0#8, 2#8] (plant.setSlot 2 (.unread (markEntry 80) true ⟨1#16, some ⟨6#16, .forward⟩, true, 0⟩)))
      = some (.done, [3#8, 0#8, 2#8, 0#8, 3#8, 0xFF#8, 0#8, 80#8, 0#8, 0#8, 0#8, 0#8, 2#8, 0#8, 1#8, 0#8, 7#8, 0#8, 0#8,
          0#8, 1#8, 0b0011100#8, 0#8, 6#8, 0#8, 1#8, 0#8, 0#8, 0#8, 0#8, 0#8, 0#8]) := by decide +kernel

theorem test_read_entry_fences :
    let t := send 0x38#8 [0#8, 2#8] (plant.setSlot 2 (.live (windowEntry 10 20 false false) false (activeRun none)))
    (t.slot 2).lifecycle = .fenced ∧ (t.output 0).faultHold = true
      ∧ t.report = some ⟨.entryCheck 2, 0, 99, 0#16, 0⟩ := by decide +kernel

/-- The order of 1.8, on AX0 with leads 20 and 0. -/
theorem test_list_axis :
    let s := ((((bench (axisAt .running .encoder 3600 true 0 0)).setOutput 0 { (plant.output 0) with lead := 20 }).setSlot
      2 (.live (windowEntry 10 200 false false) true Run.fresh)).setSlot
      3 (.live (windowEntry 100 400 true false) true Run.fresh)).setSlot
      9 (.live (markEntry 3590) true Run.fresh)
    s.order 0 = [3, 2, 9]
      ∧ reply (send 0x39#8 [0#8, 0x0E#8, 0x06#8, 0#8, 3#8] s) = some (.done,
        [1#8, 1#8, 0#8, 0#8, 0#8, 0#8, 0#8, 9#8, 2#8, 3#8, 0xFF#8, 0x0E#8, 0x06#8, 0#8, 0#8, 0#8, 0#8, 0#8]) := by
  decide +kernel

theorem test_read_notify_frees_unread :
    let t := send 0x40#8 [0#8, 0#8] (plant.setSlot 2 (.unread (markEntry 80) true ⟨1#16, some ⟨6#16, .forward⟩, true, 0⟩))
    t.slot 2 = .free ∧ reply t = some (.done,
      [1#8, 0#8, 0#8, 0#8, 0#8, 0#8, 0#8, 2#8, 3#8, 0#8, 7#8, 3#8, 0#8, 0#8, 6#8, 0#8, 0#8]) := by decide +kernel

/-! ### Safe state and diagnostics -/

theorem test_enter_safe :
    let t := send 0x50#8 [] plant
    t.condition = .safe ∧ t.latched = reasonSafeEntered ∧ reply t = some (.done, [1#8, 0#8, 32#8, 0#8]) := by
  decide +kernel

theorem test_release_safe :
    let t := send 0x51#8 [] (plant.enterSafe)
    t.condition = .releasing ∧ reply t = some (.done, [2#8, 0#8, 2#8, 30#8]) := by decide +kernel

theorem test_read_fault_report :
    reply (send 0x60#8 [] { plant with report := some ⟨.indexMismatch (-2), 2, 300, 5#16, 1⟩ })
      = some (.done, [1#8, 3#8, 0b11101#8, 2#8, 0#8, 0#8, 1#8, 44#8, 0xFF#8, 0xFF#8, 0xFF#8, 0xFE#8, 0#8, 5#8, 1#8]) := by
  decide +kernel

theorem test_clear_fault_report :
    (send 0x61#8 [] { plant with report := some ⟨.countOverrun, 2, 300, 5#16, 1⟩ }).report = none := by decide +kernel

theorem test_table_test_takes_free_and_disabled :
    ((send 0x62#8 [1#8] ((plant.setSlot 0 .disabled).setSlot 1 (.live (markEntry 1) true Run.fresh))).port.state.work?).map
      (fun w => match w with | .testing t => (t.remaining.length, t.remaining.head?) | _ => (0, none))
      = some (511, some 0) := by decide +kernel

theorem test_table_test_visit_fails :
    let s := { plant with port := { plant.port with state := .executing ⟨0x62#8, 0x11#8, .testing ⟨[7], 1, 0, 0⟩⟩ } }
    let t := after (.tableTestVisit false) s
    t.slot 7 = .disabled ∧ reply t = some (.done, [0#8, 2#8, 0#8, 1#8, 0#8, 0#8, 0#8, 1#8]) := by decide +kernel

theorem test_spoil_check :
    let t := send 0x63#8 [1#8, 2#8] (plant.setSlot 258 (.live (markEntry 1) true Run.fresh))
    t.slot 258 = .live (markEntry 1) false Run.fresh ∧ reply t = some (.done, [1#8, 2#8, 0#8]) := by decide +kernel

theorem test_memory_disturbance :
    (after (.memoryDisturbance 9) (plant.setSlot 9 (.staged (markEntry 1) true))).slot 9 = .staged (markEntry 1) false := by
  decide +kernel

/-! ### Line events -/

theorem test_encoder_count_forward :
    ((after (.encoderCount 0 true false 1 FaultOrder.manual) plant).axis 0).backlog = 2 := by decide +kernel

theorem test_encoder_count_both_lines :
    let t := after (.encoderCount 0 true true 1 FaultOrder.manual) plant
    (t.axis 0).state = .faulted ∧ (t.axis 0).lines = ⟨true, true, false⟩ ∧ t.condition = .safe
      ∧ t.report = some ⟨.illegalTransition, 0, 100, 0#16, 0⟩ := by decide +kernel

/-- The reference and the correction of 2.9. -/
theorem test_index_event_references :
    let t := after (.indexEvent 0 1 FaultOrder.manual)
      (bench { (axisAt .running .encoder 3600 false 1250 3) with indexPoint := some 0 })
    ((t.axis 0).position, (t.axis 0).referenced, t.latched) = (3597, true, reasonAxisChanged) := by decide +kernel

theorem test_index_event_corrects :
    let t := after (.indexEvent 0 1 FaultOrder.manual)
      (bench { (axisAt .running .encoder 3600 true 3597 1) with indexPoint := some 0 })
    ((t.axis 0).backlog, (t.axis 0).corrections) = (3, 1) := by decide +kernel

/-- The first and fifth intervals of 2.7. -/
theorem test_rate_interval_reverse :
    let t := after (.rateInterval []) (bench { (axisAt .running .rate 400 true 0 0) with rate := -12500 })
    ((t.axis 0).backlog, (t.axis 0).remainder) = (-1, -2500) := by decide +kernel

theorem test_rate_interval_forward :
    let t := after (.rateInterval [(0, FaultOrder.manual)])
      (bench { (axisAt .running .rate 400 true 0 0) with rate := 7000, remainder := 9000 })
    ((t.axis 0).backlog, (t.axis 0).remainder) = (1, 6000) := by decide +kernel

theorem test_line_change_while_halted :
    (after (.recognizedLineChange 0 ⟨true, true, true⟩ 1 FaultOrder.manual)
      (bench (axisAt .halted .encoder 400 true 7 0))).axis 0
      = { (axisAt .halted .encoder 400 true 7 0) with lines := ⟨true, true, true⟩ } := by decide +kernel

theorem test_line_change_that_counts_is_another_event :
    after (.recognizedLineChange 0 ⟨true, false, false⟩ 1 FaultOrder.manual) plant = plant := by decide +kernel

/-! ### Channel events -/

/-- The first and third steps of 3.13. -/
theorem test_step_fires :
    let s := (plant.setSlot 20 (.live (windowEntry 100 150 true true) true Run.fresh)).setSlot 21
      (.live (pulseEntry 100 .either) true Run.fresh)
    let t := after (.step ⟨0, []⟩) s
    (t.axis 0).position = 100 ∧ (t.axis 0).backlog = 0
      ∧ t.slot 20 = .live (windowEntry 100 150 true true) true
          ⟨.active none, true, ⟨1#16, some ⟨0#16, .forward⟩, true, 0⟩⟩
      ∧ t.slot 21 = .live (pulseEntry 100 .either) true
          ⟨.active (some 1000), false, ⟨1#16, some ⟨0#16, .forward⟩, false, 0⟩⟩
      ∧ ((t.output 0).windowCount, (t.output 0).pulseCount, t.pinLevel 0) = (1, 1, true) := by decide +kernel

/-- A wrap with a closed list: 5.10, the second order. -/
theorem test_step_wrap_applies_the_list :
    let s := ((bench (axisAt .running .encoder 400 true 399 1)).setSlot 14 (.staged (markEntry 1) true)).setList 0
      ⟨[.place 14], true, 5#8⟩
    let t := after (.step ⟨0, []⟩) s
    t.slot 14 = .live (markEntry 1) true Run.fresh ∧ t.list 0 = ⟨[], false, 6#8⟩
      ∧ ((t.axis 0).position, (t.axis 0).revolution, t.latched) = (0, 1#16, reasonBatchApplied) := by decide +kernel

theorem test_pulse_expiry :
    let s := (plant.setOutput 0 { (plant.output 0) with pulseCount := 1 }).setSlot 21
      (.live (pulseEntry 100 .either) true (activeRun (some 1000)))
    let t := after (.pulseExpiry 21 1000) s
    t.slot 21 = .live (pulseEntry 100 .either) true Run.fresh ∧ (t.output 0).pulseCount = 0 := by decide +kernel

theorem test_pulse_does_not_expire_early :
    let s := plant.setSlot 21 (.live (pulseEntry 100 .either) true (activeRun (some 1000)))
    after (.pulseExpiry 21 999) s = s := by decide +kernel

theorem test_pulse_does_not_expire_late :
    let s := plant.setSlot 21 (.live (pulseEntry 100 .either) true (activeRun (some 1000)))
    after (.pulseExpiry 21 1001) s = s := by decide +kernel

/-- A member fires, the work stops before its handing, READ_NOTIFY returns it, and the handing adds it anew (R135). -/
theorem test_read_notify_between_a_fire_and_its_handing :
    let member : FireLog := { FireLog.fresh with notifyPending := true, missed := 2 }
    let t := after (.step ⟨0, [.handing 3]⟩)
      (plant.setSlot 3 (.live (markEntry 100) true { Run.fresh with log := member }))
    let fired (pending : Bool) (missed : Nat) : Slot :=
      .live (markEntry 100) true ⟨.idle, false, ⟨1#16, some ⟨0#16, .forward⟩, pending, missed⟩⟩
    let read := send 0x40#8 [0#8, 0#8] t
    t.slot 3 = fired true 2 ∧ t.channel 0 = ⟨[.hand 3, .boundaries 100 .forward, .haltIfDone], []⟩
      ∧ read.slot 3 = fired false 0 ∧ (after (.step ⟨0, []⟩) read).slot 3 = fired true 0
      ∧ (after (.step ⟨0, []⟩) t).slot 3 = fired true 3 := by decide +kernel

/-- The rows of R131 that the claims between a fire and its handing make. -/
theorem test_waiting_handing_meets_the_slot_it_finds :
    let taken (v : Slot) : State := after (.step ⟨1, []⟩) ((plant.setSlot 3 v).setChannel 1 ⟨[.hand 3], []⟩)
    let log : FireLog := { FireLog.fresh with notifyPending := true }
    (taken (.live (markEntry 1) true Run.fresh)).notifySet = [3]
      ∧ (taken (.fenced (markEntry 1) false log)).slot 3 = .fenced (markEntry 1) false { log with missed := 1 }
      ∧ (taken (.unread (markEntry 1) true log)).slot 3 = .unread (markEntry 1) true { log with missed := 1 }
      ∧ taken .free = plant ∧ (taken (.staged (markEntry 1) true)).notifySet = [] := by decide +kernel

/-- A handing that waits while its slot is placed anew does not reach the new entry, be it applied or fenced (R132). -/
theorem test_no_handing_reaches_a_later_entry :
    let s (ok : Bool) : State := (((bench (axisAt .running .encoder 400 true 399 1)).setSlot 14
      (.staged (markEntry 1) ok)).setList 0 ⟨[.place 14], true, 5#8⟩).setChannel 1 ⟨[.hand 14], []⟩
    let t (ok : Bool) : State := after (.step ⟨1, []⟩) (after (.step ⟨0, []⟩) (s ok))
    (t true).slot 14 = .live (markEntry 1) true Run.fresh
      ∧ (t false).slot 14 = .fenced (markEntry 1) false FireLog.fresh ∧ ∀ ok, (t ok).notifySet = [] := by decide +kernel

/-- A step that fences slot 5, a WINDOW of OUT0 at the step point, and stops there. -/
def fencing (stops : List StopPoint) : State :=
  after (.step ⟨0, stops⟩) (plant.setSlot 5 (.live (windowEntry 100 150 false false) false Run.fresh))

/-- Requests between the three claims of a fence find the slot FENCED, then the hold set, then the report filled (R160):
READ_OUTPUT from its fault hold on, CLEAR_OUTPUT_FAULT, and READ_FAULT_REPORT. -/
theorem test_requests_between_the_claims_of_a_fence :
    let read (s : State) : Option (List Byte) := (reply (send 0x23#8 [0#8] s)).map (fun r => r.2.drop 15)
    let first := fencing [.fenceOutput 5]
    let second := fencing [.fenceReport 5]
    read first = some [0#8, 0#8, 0#8, 0#8, 0#8, 1#8, 0#8, 1#8]
      ∧ read second = some [1#8, 0#8, 0#8, 0#8, 0#8, 1#8, 0#8, 1#8]
      ∧ reply (send 0x22#8 [0#8] first) = some (.hasDependents, [])
      ∧ reply (send 0x60#8 [] second) = some (.done, List.replicate 15 0#8)
      ∧ (fencing []).report = some ⟨.entryCheck 5, 0, 100, 0#16, 0⟩
      ∧ after (.step ⟨0, []⟩) first = fencing [] ∧ after (.step ⟨0, []⟩) second = fencing [] := by decide +kernel

/-- READ_ENTRY finds a WINDOW of OUT0 inconsistent and stops before claim 2: a step of AX0 comes between the claims of its
fence, and the report keeps the position at claim 1 (R160, R180). -/
theorem test_a_step_between_the_claims_of_a_request_fence :
    let s := plant.setSlot 5 (.live (windowEntry 1 2 false false) false Run.fresh)
    let first := sendStopping 0x38#8 [0#8, 5#8] [.fenceOutput 5] s
    let stepped := after (.step ⟨0, []⟩) first
    let done := after .requestCompletion stepped
    (first.slot 5).lifecycle = .fenced ∧ (first.output 0).faultHold = false ∧ first.report = none ∧ reply first = none
      ∧ (stepped.axis 0).position = 100 ∧ (stepped.output 0).faultHold = false
      ∧ (done.output 0).faultHold = true ∧ done.report = some ⟨.entryCheck 5, 0, 99, 0#16, 0⟩
      ∧ done.port.slot.map Response.status = some .done := by decide +kernel

/-- A fence of an ACTIVE WINDOW of OUT0 stops before its output, the FENCED entry is retired, and CONFIG_OUTPUT unbinds the
output: its count is 0 then (R86, R88, R99). -/
theorem test_no_count_stays_on_an_unbound_output :
    let s := (plant.setOutput 0 { (plant.output 0) with windowCount := 1 }).setSlot 5
      (.live (windowEntry 50 100 false false) false (activeRun none))
    let stopped := after (.step ⟨0, [.fenceOutput 5]⟩) s
    let retired := after .requestCompletion (send 0x32#8 [0#8, 5#8, 0#8] stopped)
    let t := after (.configOutput ⟨frameRest 0x20#8 0x12#8 [0#8, 255#8, 0#8, 0#8, 0#8, 0#8], .prompt⟩) retired
    retired.slot 5 = .free ∧ (retired.output 0).windowCount = 1
      ∧ ((t.output 0).binding, (t.output 0).windowCount, (t.output 0).faultHold) = (none, 0, true)
      ∧ (after (.step ⟨0, []⟩) t).output 0 = t.output 0 := by decide +kernel

/-- READ_STATUS takes the condition before a STOP event and the latched set after it (R184). -/
theorem test_read_status_mixes_items :
    let stopped := sendStopping 0x02#8 [] [.item .attention] plant
    let t := after .requestCompletion (after (.stopEvent 11) stopped)
    (t.port.slot.map (fun r => r.payload.take 2)) = some [0#8, reasonSafeEntered.setWidth 8] ∧ t.condition = .safe := by
  decide +kernel

/-- A CLOSE_LIST on a HALTED axis stops within the fence that its application meets, and goes on to its answer. -/
theorem test_close_list_stops_and_goes_on :
    let s := ((bench (axisAt .halted .encoder 400 false 7 0)).setSlot 5 (.staged (windowEntry 1 2 false false) false)).setList 0
      ⟨[.place 5], false, 5#8⟩
    let stopped := sendStopping 0x34#8 [0#8] [.fenceOutput 5] s
    reply stopped = none ∧ (stopped.slot 5).lifecycle = .fenced ∧ (stopped.output 0).faultHold = false
      ∧ (stopped.background).background = send 0x34#8 [0#8] s := by decide +kernel

theorem test_axis_silent_end :
    let s := ((bench { (axisAt .faulted .encoder 400 false 7 0) with silentDue := true }).setOutput 0
      { (plant.output 0) with windowCount := 1 }).setSlot 20 (.live (windowEntry 5 9 false false) true (activeRun none))
    let t := after (.axisSilentEnd 0) s
    t.slot 20 = .live (windowEntry 5 9 false false) true Run.fresh ∧ (t.output 0).windowCount = 0
      ∧ (t.axis 0).silentDue = false := by decide +kernel

theorem test_stop_event :
    let t := after (.stopEvent 11) plant
    t.stopActive = true ∧ t.condition = .safe ∧ t.safeHolds = 32 := by decide +kernel

theorem test_stop_inactive :
    (after (.stopInactive 11) { plant with stopActive := true, condition := .safe }).stopActive = false := by
  decide +kernel

/-! ### States and operands that meet the hypotheses of the statements, clause by clause -/

/-- The tag of the witnesses: it is not the last accepted one of the bench. -/
abbrev tag : Byte := 0x11#8

/-- A claim order of the witnesses that leaves the silent end waiting. -/
def lateOrder : FaultOrder := ⟨[.safeState, .report], true, []⟩

/-- A part whose RUN_AXIS has been accepted and waits for its block. -/
def waiting : State :=
  { plant with port := { plant.port with state := .executing ⟨0x11#8, tag, .waiting [0#8] ⟨false, false, false⟩ later⟩ } }

/-- A part in which the channels of AX1 and AX3 have stopped before a handing. -/
def stopped : State := (plant.setChannel 1 ⟨[.hand 7], []⟩).setChannel 3 ⟨[.hand 8], []⟩

theorem witness_StepTakesTheFrontCommand :
    plant.pending = [] ∧ (∀ a, plant.busy a = false) ∧ plant.port.state.work? = none
      ∧ stopped.pending = [] ∧ stopped.busy 1 = true ∧ (∀ b < 1, stopped.busy b = false)
      ∧ waiting.pending = [] ∧ (∀ a, waiting.busy a = false)
      ∧ waiting.port.state = .executing ⟨0x11#8, tag, .waiting [0#8] ⟨false, false, false⟩ later⟩
      ∧ waiting.takeBreak.pending = [] ∧ (∀ a, waiting.takeBreak.busy a = false)
      ∧ waiting.takeBreak.port.state = .draining ⟨0x11#8, tag, .waiting [0#8] ⟨false, false, false⟩ later⟩ := by
  decide +kernel

theorem witness_StepTakesTheFrontCommand_goes_on :
    let fenced := plant.setSlot 5 (.live (windowEntry 1 2 false false) false Run.fresh)
    let stopped := sendStopping 0x38#8 [0#8, 5#8] [.fenceOutput 5] fenced
    let sampling := sendStopping 0x02#8 [] [.item .members] plant
    stopped.pending = [] ∧ (∀ a, stopped.busy a = false) ∧ (stopped.port.state.work?).any Work.waits = true
      ∧ sampling.pending = [] ∧ (∀ a, sampling.busy a = false) ∧ (sampling.port.state.work?).any Work.waits = true := by
  decide +kernel

theorem test_idle_part_ends_stopped_work_first :
    stopped.background = stopped.finish 1 ∧ stopped.background.background = plant
      ∧ stopped.background.background.background = plant := by decide +kernel

theorem witness_BadFramesOnlyJoinTheRejectedSet :
    let l : Lines := ⟨false, false, false⟩
    let badFraming (rest : List Byte) : Prop :=
      rest.length < 2 ∨ 60 < (rest.getD 1 0#8).toNat ∨ rest.length + 1 < (rest.getD 1 0#8).toNat + 4
    plant.phase = .serving ∧ plant.transaction ≠ .unserved
      ∧ (requestCommand 0x01#8 [5#8] l .prompt).wf = true ∧ badFraming [5#8]
      ∧ (requestCommand 0x7F#8 ([5#8, 61#8] ++ List.replicate 62 0#8) l .prompt).wf = true
      ∧ badFraming ([5#8, 61#8] ++ List.replicate 62 0#8)
      ∧ (requestCommand 0x03#8 [5#8, 1#8, 0#8] l .prompt).wf = true ∧ badFraming [5#8, 1#8, 0#8]
      ∧ (requestCommand 0x01#8 [5#8, 0#8, 0x2B#8] l .prompt).wf = true ∧ ¬ badFraming [5#8, 0#8, 0x2B#8]
      ∧ [5#8, 0#8, 0x2B#8].getD (2 + 0) 0#8 ≠ crc8 (0x01#8 :: [5#8, 0#8, 0x2B#8].take (2 + 0)) := by
  decide +kernel

theorem witness_GoodFramesAreBusyDuplicateOrAccepted :
    let l : Lines := ⟨false, false, false⟩
    let sixty : List Byte := List.replicate 60 0xFF#8
    let busy := send 0x01#8 [] plant
    let done := after .requestCompletion busy
    sixty.length ≤ 60 ∧ (requestCommand 0x7F#8 (frameRest 0x7F#8 tag sixty ++ [0#8]) l later).wf = true
      ∧ (requestCommand 0x01#8 (frameRest 0x01#8 tag [] ++ []) l .prompt).wf = true
      ∧ busy.phase = .serving ∧ busy.transaction ≠ .unserved ∧ busy.port.state ≠ .idle
      ∧ done.phase = .serving ∧ done.transaction ≠ .unserved ∧ done.port.state = .idle
      ∧ done.port.lastTag = some tag ∧ done.port.lastTag ≠ some 0x12#8
      ∧ argLength 0x01#8 = some ([] : List Byte).length
      ∧ argLength 0x10#8 = some (List.replicate 13 (0#8 : Byte)).length := by decide +kernel

theorem witness_MalformedRequestsChangeNothing :
    (List.replicate 60 (0#8 : Byte)).length ≤ 60 ∧ plant.ReadyQuiet tag
      ∧ (Instr.unknownRequest 0x37#8 (frameRest 0x37#8 tag (List.replicate 60 0#8))).wf = true
      ∧ (List.replicate 9 (0xFF#8 : Byte)).take 8 = List.replicate 8 0xFF#8
      ∧ (0xFF#8 :: List.replicate 6 (0xFF#8 : Byte)).take 8 ≠ List.replicate 8 0xFF#8 ∧ (0xFF#8 : Byte) ≠ 0x00#8
      ∧ argLength 0x01#8 = some 0 ∧ ([0#8] : List Byte).length ≠ 0
      ∧ argLength 0x30#8 = some 15 ∧ (List.replicate 14 (0#8 : Byte)).length ≠ 15 := by
  decide +kernel

/-- An argument area of the length of its request with a value out of its range. -/
abbrev bad (code : Byte) (args : List Byte) : Prop := argLength code = some args.length ∧ BadValues code args

/-- Argument areas that go beyond one range each, by one where the field has values on both sides. -/
theorem witness_MalformedRequestsChangeNothing_values :
    bad 0x03#8 [128#8] ∧ bad 0x04#8 [128#8]
      ∧ bad 0x10#8 ([4#8, 1#8] ++ List.replicate 11 0#8) ∧ bad 0x10#8 ([0#8, 2#8] ++ List.replicate 11 0#8)
      ∧ bad 0x10#8 [0#8, 0#8, 3#8, 0#8, 0#8, 16#8, 0#8, 0#8, 0#8, 0#8, 0#8, 0#8, 0#8]
      ∧ bad 0x10#8 [0#8, 0#8, 2#8, 0#8, 0#8, 15#8, 0#8, 0#8, 0#8, 0#8, 0#8, 0#8, 0#8]
      ∧ bad 0x10#8 [0#8, 0#8, 2#8, 1#8, 0#8, 1#8, 0#8, 0#8, 0#8, 0#8, 0#8, 0#8, 0#8]
      ∧ bad 0x10#8 [0#8, 0#8, 2#8, 0#8, 0#8, 16#8, 2#8, 0#8, 0#8, 0#8, 0#8, 0#8, 0#8]
      ∧ bad 0x10#8 [0#8, 0#8, 2#8, 0#8, 0#8, 16#8, 1#8, 0#8, 16#8, 0#8, 0#8, 0#8, 0#8]
      ∧ bad 0x10#8 [0#8, 0#8, 2#8, 0#8, 0#8, 16#8, 0#8, 0#8, 0#8, 0#8, 2#8, 0#8, 0#8]
      ∧ bad 0x10#8 [0#8, 0#8, 2#8, 0#8, 0#8, 16#8, 0#8, 0#8, 0#8, 0#8, 0#8, 0#8, 2#8]
      ∧ (∀ c ∈ [0x11#8, 0x12#8, 0x16#8, 0x34#8, 0x35#8], bad c [4#8]) ∧ bad 0x13#8 [4#8, 0#8, 0#8]
      ∧ bad 0x14#8 [0#8, 0#8, 0#8] ∧ bad 0x14#8 [3#8, 0x04#8, 0x00#8] ∧ bad 0x14#8 [3#8, 0xFC#8, 0x00#8]
      ∧ bad 0x15#8 [0#8, 0x00#8, 0x07#8, 0xA1#8, 0x21#8] ∧ bad 0x15#8 [0#8, 0xFF#8, 0xF8#8, 0x5E#8, 0xDF#8]
      ∧ bad 0x20#8 [32#8, 0#8, 0#8, 0#8, 0#8, 0#8] ∧ bad 0x20#8 [31#8, 4#8, 0#8, 0#8, 0#8, 0#8]
      ∧ bad 0x20#8 [31#8, 254#8, 0#8, 0#8, 0#8, 0#8] ∧ bad 0x20#8 [31#8, 255#8, 2#8, 0#8, 0#8, 0#8]
      ∧ bad 0x20#8 [31#8, 0#8, 1#8, 2#8, 0#8, 0#8] ∧ bad 0x20#8 [31#8, 0#8, 1#8, 1#8, 3#8, 0#8]
      ∧ bad 0x20#8 [31#8, 0#8, 1#8, 1#8, 2#8, 2#8] ∧ bad 0x21#8 [32#8, 0#8] ∧ bad 0x21#8 [31#8, 4#8]
      ∧ (∀ c ∈ [0x22#8, 0x23#8], bad c [32#8]) := by
  simp [bad, BadValues, argLength]

/-- The requests from PLACE on. -/
theorem witness_MalformedRequestsChangeNothing_edit_values :
    let place (axis kind output duration qualifier once notify close : Byte) : List Byte :=
      [axis, kind, output, 0#8, 1#8, 0#8, 2#8, 0#8, duration, qualifier, once, notify, 0#8, 0#8, close]
    let alter (handle presence duration qualifier once notify close : Byte) : List Byte :=
      [handle, 0#8, presence, 0#8, 1#8, 0#8, 2#8, 0#8, duration, qualifier, once, notify, 0#8, 0#8, close]
    bad 0x30#8 (place 4#8 1#8 0#8 10#8 0#8 0#8 0#8 0#8) ∧ bad 0x30#8 (place 3#8 4#8 0#8 10#8 0#8 0#8 0#8 0#8)
      ∧ bad 0x30#8 (place 3#8 2#8 32#8 10#8 0#8 0#8 0#8 0#8) ∧ bad 0x30#8 (place 3#8 1#8 31#8 9#8 0#8 0#8 0#8 0#8)
      ∧ bad 0x30#8 (place 3#8 3#8 32#8 9#8 3#8 0#8 0#8 0#8) ∧ bad 0x30#8 (place 3#8 0#8 31#8 9#8 3#8 2#8 0#8 0#8)
      ∧ bad 0x30#8 (place 3#8 0#8 31#8 9#8 3#8 1#8 2#8 0#8) ∧ bad 0x30#8 (place 3#8 0#8 31#8 9#8 3#8 1#8 1#8 2#8)
      ∧ bad 0x31#8 (alter 2#8 0#8 0#8 0#8 0#8 0#8 0#8) ∧ bad 0x31#8 (alter 1#8 128#8 0#8 0#8 0#8 0#8 0#8)
      ∧ bad 0x31#8 (alter 1#8 4#8 9#8 0#8 0#8 0#8 0#8) ∧ bad 0x31#8 (alter 1#8 8#8 0#8 3#8 0#8 0#8 0#8)
      ∧ bad 0x31#8 (alter 1#8 16#8 0#8 0#8 2#8 0#8 0#8) ∧ bad 0x31#8 (alter 1#8 32#8 0#8 0#8 0#8 2#8 0#8)
      ∧ bad 0x31#8 (alter 1#8 0#8 0#8 3#8 2#8 2#8 2#8)
      ∧ bad 0x32#8 [2#8, 0#8, 0#8] ∧ bad 0x32#8 [1#8, 255#8, 2#8]
      ∧ bad 0x33#8 [32#8, 0#8, 0#8, 0#8] ∧ bad 0x33#8 [31#8, 0x08#8, 0x00#8, 0#8]
      ∧ bad 0x33#8 [31#8, 0xF7#8, 0xFF#8, 0#8] ∧ bad 0x33#8 [31#8, 0xF8#8, 0x00#8, 2#8]
      ∧ bad 0x36#8 [4#8, 0#8] ∧ bad 0x36#8 [3#8, 32#8] ∧ (∀ c ∈ [0x38#8, 0x40#8, 0x63#8], bad c [2#8, 0#8])
      ∧ bad 0x39#8 [4#8, 0#8, 0#8, 0#8, 0#8] ∧ bad 0x39#8 [3#8, 0#8, 0#8, 2#8, 0#8] ∧ bad 0x62#8 [2#8] := by
  simp [bad, BadValues, argLength]

theorem witness_PollsChangeNothingAndBreaksClearThePort :
    plant.phase = .serving ∧ plant.transaction ≠ .unserved := by decide +kernel

theorem witness_OutgoingFrameShowsPortAndAttention :
    plant.phase = .serving ∧ plant.transaction = .closed ∧ ({ plant with transaction := .unserved }).transaction ≠ .closed
      ∧ plant.latched &&& 0b0000011#7 = 0#7 := by decide +kernel

theorem witness_CompletionFillsTheSlot :
    let executing : PortState := .executing ⟨0x03#8, tag, .ready .done [] (.acknowledge 0x04#7)⟩
    let draining : PortState := .draining ⟨0x04#8, tag, .ready .done [] (.setMask 0x7F#7)⟩
    { plant with port := { plant.port with state := executing } }.takeWork.port.state = executing
      ∧ { plant with port := { plant.port with state := draining } }.takeWork.port.state = draining
      ∧ waiting.takeWork.port.state = .executing ⟨0x11#8, tag, bare .done⟩ ∧ plant.port.state.work? = none := by
  decide +kernel

theorem witness_CompletionFillsTheSlot_stops_again :
    let s := sendStopping 0x02#8 [] [.item .members, .item .slots] plant
    (s.takeWork.port.state.work?).any Work.waits = true ∧ (s.takeWork.takeWork.port.state.work?).any Work.waits = false := by
  decide +kernel

theorem witness_NopTakesATagAndCompletesDone : plant.ReadyQuiet tag := by decide +kernel

theorem witness_AcknowledgeAndMaskWaitForTheCompletion : plant.ReadyQuiet tag ∧ 128 ≤ (0x80#8 : Byte).toNat := by
  decide +kernel

theorem witness_DeviceResetGivesTheResetValues : { plant with transaction := .served [] }.transaction ≠ .closed := by
  decide +kernel

theorem witness_ResetEndsAndThenThePortServes :
    State.reset.phase = .held ∧ State.reset.transaction = .closed
      ∧ { State.reset with phase := .delay }.phase = .delay ∧ State.reset.phase ≠ .serving
      ∧ { plant with transaction := .unserved }.transaction = .unserved := by decide +kernel

/-- The smallest modulus with the largest index point it admits. -/
def smallConfig : AxisConfig := ⟨.encoder, 16, some 15, 4#8, false, 0#8, .safe⟩

/-- The largest modulus, without an index point. -/
def largeConfig : AxisConfig := ⟨.stepped, 65536, none, 4#8, false, 0#8, .passive⟩

theorem witness_FirstConfigurationHaltsTheAxis :
    plant.ReadyQuiet tag ∧ smallConfig.InRange ∧ largeConfig.InRange ∧ (plant.axis 1).state = .off
      ∧ ¬ { smallConfig with modulus := 15 }.InRange ∧ ¬ { largeConfig with modulus := 65537 }.InRange
      ∧ ¬ { smallConfig with indexPoint := some 16 }.InRange ∧ 65537 < 16777216 ∧ 16 < 65536 := by decide +kernel

theorem witness_ConfigAxisOfAConfiguredAxis :
    let halted (source : Source) (modulus : Nat) : State := bench (axisAt .halted source modulus true 3 0)
    let alone := plant.setAxis 1 (axisAt .halted .rate 400 true 3 0)
    plant.ReadyQuiet tag ∧ (plant.axis 0).state = .running
      ∧ (halted .encoder 16).ReadyQuiet tag ∧ ((halted .encoder 16).axis 0).state = .halted
      ∧ smallConfig.modulus = ((halted .encoder 16).axis 0).modulus
      ∧ (smallConfig.source = .encoder ↔ ((halted .encoder 16).axis 0).source = .encoder)
      ∧ (halted .encoder 65536).ReadyQuiet tag ∧ largeConfig.modulus = ((halted .encoder 65536).axis 0).modulus
      ∧ ((halted .encoder 65536).axis 0).source = .encoder ∧ largeConfig.source ≠ .encoder
      ∧ (halted .rate 16).ReadyQuiet tag ∧ smallConfig.modulus = ((halted .rate 16).axis 0).modulus
      ∧ ((halted .rate 16).axis 0).source ≠ .encoder ∧ smallConfig.source = .encoder
      ∧ (halted .encoder 16).axisHasDependents 0 = true ∧ largeConfig.modulus ≠ ((halted .encoder 16).axis 0).modulus
      ∧ alone.ReadyQuiet tag ∧ (alone.axis 1).state = .halted ∧ alone.axisHasDependents 1 = false
      ∧ largeConfig.modulus ≠ (alone.axis 1).modulus := by decide +kernel

/-- AX0 as given, with four windows of it: an inconsistent one, one around position 7, a spent one there, and an ACTIVE one
that leaves 7 out. -/
def windowed (x : Axis) : State :=
  let w := windowEntry 5 9 true true
  ((((bench x).setSlot 508 (.live w false (activeRun none))).setSlot 509 (.live w true Run.fresh)).setSlot 510
    (.live w true { Run.fresh with spent := true })).setSlot 511 (.live (windowEntry 9 5 false false) true (activeRun none))

/-- The slots of `windowed` meet the clauses of a settle and of a jump, in a state where AX0 is at position 7. -/
abbrev MeetsWindowClauses (s t : State) : Prop :=
  let w := windowEntry 5 9 true true
  s.slot 508 = .live w false (activeRun none) ∧ s.slot 509 = .live w true Run.fresh ∧ t.inWindow w 9 = true
    ∧ s.slot 510 = .live w true { Run.fresh with spent := true }
    ∧ s.slot 511 = .live (windowEntry 9 5 false false) true (activeRun none)
    ∧ t.inWindow (windowEntry 9 5 false false) 5 = false
    ∧ (s.slot 0).liveWith (fun e => e.axis == 0 && e.isWindow) = false

theorem witness_ConfigAxisOfAConfiguredAxis_windows :
    let s := windowed (axisAt .halted .encoder 65536 true 7 0)
    let t := after (.configAxis ⟨frameRest 0x10#8 0x11#8 (configAxisArgs 0 largeConfig), .prompt⟩ ⟨false, false, false⟩) s
    s.ReadyQuiet tag ∧ (s.axis 0).state = .halted ∧ (s.axis 0).source = .encoder
      ∧ largeConfig.modulus = (s.axis 0).modulus ∧ largeConfig.source ≠ .encoder ∧ MeetsWindowClauses s t := by
  decide +kernel

theorem witness_HaltAxisByState :
    let running (source : Source) (backlog : Int) : State := bench (axisAt .running source 400 true 0 backlog)
    let faulted : State := bench (axisAt .faulted .rate 400 true 0 0)
    (running .stepped 1).ReadyQuiet tag ∧ ((running .stepped 1).axis 0).backlog ≠ 0
      ∧ ((running .stepped 0).axis 0).state = .running ∧ ((running .stepped 0).axis 0).backlog = 0
      ∧ ((running .stepped 0).list 0).closed = false ∧ (running .stepped 0).condition ≠ .releasing
      ∧ ((running .stepped 0).axis 0).source ≠ .encoder ∧ ((running .encoder 0).axis 0).source = .encoder
      ∧ faulted.ReadyQuiet tag ∧ (faulted.axis 0).state = .faulted ∧ (faulted.axis 0).silentDue = false
      ∧ { faulted with condition := .releasing }.ReadyQuiet tag ∧ faulted.condition ≠ .releasing
      ∧ (faulted.output 0).binding = some 0
      ∧ (((running .stepped 0).setList 0 ⟨[.setLead 0 3], true, 1#8⟩).list 0).closed = true
      ∧ ((bench (axisAt .halted .rate 400 true 0 0)).axis 0).state = .halted
      ∧ (plant.axis 1).state = .off := by decide +kernel

theorem witness_HaltAxisByState_windows :
    let s := windowed (axisAt .faulted .rate 400 true 7 0)
    let u := windowed (axisAt .faulted .encoder 400 false 7 0)
    s.ReadyQuiet tag ∧ (s.axis 0).state = .faulted ∧ (s.axis 0).silentDue = false ∧ s.condition ≠ .releasing
      ∧ (s.axis 0).referenced = true ∧ MeetsWindowClauses s (send 0x12#8 [0#8] s)
      ∧ u.ReadyQuiet tag ∧ (u.axis 0).state = .faulted ∧ (u.axis 0).silentDue = false ∧ (u.axis 0).referenced = false := by
  decide +kernel

theorem witness_SetPositionJumps :
    let s (ok : Bool) (r : Run) : State := plant.setSlot 511 (.live (windowEntry 350 399 true true) ok r)
    let t := send 0x13#8 [0#8, 1#8, 0x8E#8] (s true Run.fresh)
    let u := send 0x13#8 [0#8, 0#8, 0x0A#8] (s true Run.fresh)
    plant.ReadyQuiet tag ∧ (plant.axis 0).state = .running ∧ 0 < (plant.axis 0).modulus ∧ 399 < (plant.axis 0).modulus
      ∧ 399 < 65536 ∧ (plant.axis 0).modulus ≤ 400 ∧ 65535 < 65536 ∧ (plant.axis 0).modulus ≤ 65535
      ∧ (plant.axis 1).state = .off
      ∧ (∀ ok, (s ok Run.fresh).ReadyQuiet tag ∧ (s ok Run.fresh).slot 511 = .live (windowEntry 350 399 true true) ok Run.fresh)
      ∧ Run.fresh.activity = .idle ∧ Run.fresh.spent = false ∧ (activeRun none).activity ≠ .idle
      ∧ ((t.axis 0).position, t.inWindow (windowEntry 350 399 true true) 399) = (397, true)
      ∧ ((u.axis 0).position, u.inWindow (windowEntry 350 399 true true) 399) = (9, false)
      ∧ (windowEntry 350 399 true true).notify = true := by decide +kernel

theorem witness_RunMoveAndRateRequests :
    let at_ (state : AxisState) : State := bench (axisAt state .rate 400 true 0 0)
    let stepped (backlog : Int) : State := bench (axisAt .running .stepped 400 true 0 backlog)
    (∀ state ∈ [AxisState.off, .halted, .running, .halting, .faulted],
        (at_ state).ReadyQuiet tag ∧ ((at_ state).axis 0).state = state ∧ ((at_ state).axis 0).source = .rate)
      ∧ 4 ≤ (4#8 : Byte).toNat
      ∧ (stepped 0).ReadyQuiet tag ∧ ((stepped 0).axis 0).source = .stepped ∧ ((stepped 0).axis 0).state = .running
      ∧ (((stepped 0).axis 0).backlog + 1023).natAbs ≤ 1023 ∧ (((stepped 0).axis 0).backlog + -1023).natAbs ≤ 1023
      ∧ 1023 < (((stepped 1).axis 0).backlog + 1023).natAbs
      ∧ (1023 : Int).natAbs ≤ 1023 ∧ 1023 < (1024 : Int).natAbs ∧ 1023 < (-1024 : Int).natAbs
      ∧ (500000 : Int).natAbs ≤ 500000 ∧ (-500000 : Int).natAbs ≤ 500000
      ∧ 500000 < (500001 : Int).natAbs ∧ 500000 < (-500001 : Int).natAbs := by
  decide +kernel

theorem witness_EncoderChangesAreCounted :
    let r := plant.axis 0
    r.state = .running ∧ r.source = .encoder ∧ (r.lines.a, r.lines.b) = forwardPair 0 ∧ r.filter.toNat + 1 ≤ 1
      ∧ (r.backlog + 1).natAbs ≤ 1023 ∧ (r.backlog + -1).natAbs ≤ 1023 ∧ 0 ≤ r.filter.toNat
      ∧ plant.applying 0 = false := by decide +kernel

theorem witness_EncoderFaultsTakeTheAxisOut :
    let r := (bench { runner with backlog := 1023 }).axis 0
    let r' := (bench { runner with backlog := -1023 }).axis 0
    r.state = .running ∧ r.source = .encoder ∧ r.filter.toNat + 1 ≤ 1 ∧ (r.lines.a, r.lines.b) = forwardPair 0
      ∧ 1024 ≤ (r.backlog + 1).natAbs ∧ r'.state = .running ∧ r'.source = .encoder
      ∧ (r'.lines.a, r'.lines.b) = forwardPair 0 ∧ 1024 ≤ (r'.backlog + -1).natAbs ∧ plant.busy 0 = false := by
  decide +kernel

/-- States that meet the clauses of a fault: a safe-action axis in and out of SAFE, a passive one in RELEASING with an
output held and with none and in SAFE, and a report already filled. -/
theorem witness_FaultTaken :
    let passive := bench { runner with faultAction := .passive }
    let releasing := { passive with condition := .releasing }
    let held := releasing.setOutput 0 { (releasing.output 0) with safeHold := true }
    (plant.axis 0).faultAction = .safe ∧ plant.condition ≠ .safe ∧ plant.enterSafe.condition = .safe
      ∧ (releasing.axis 0).faultAction = .passive ∧ releasing.condition = .releasing
      ∧ (∀ o, ¬ (releasing.output o).safeHold = true)
      ∧ (held.output 0).safeHold = true ∧ (held.output 0).binding = some 0
      ∧ passive.enterSafe.condition ≠ .releasing ∧ (plant.list 0).closed = false ∧ plant.report = none
      ∧ ((plant.setList 0 ⟨[.setLead 0 3], true, 1#8⟩).list 0).closed = true := by decide +kernel

theorem witness_IndexEventsReferenceAndCheck :
    let at_ (referenced : Bool) (position : Nat) : Axis :=
      (bench { (axisAt .running .encoder 3600 referenced position 0) with indexPoint := some 0 }).axis 0
    (plant.axis 0).lines.z = false ∧ (plant.axis 0).filter.toNat + 1 ≤ 1 ∧ (plant.axis 0).state ≠ .off
      ∧ (plant.axis 0).indexPoint = none
      ∧ (at_ false 7).state = .running ∧ (at_ false 7).source = .encoder ∧ (at_ false 7).indexPoint = some 0
      ∧ (at_ false 7).referenced = false
      ∧ (∀ d ∈ [(0 : Int), 4, -4, 5, -5, 1800, -1799],
        (at_ true (d % 3600).toNat).referenced = true ∧ 0 < (at_ true 0).modulus
          ∧ -((at_ true 0).modulus : Int) < 2 * d ∧ 2 * d ≤ (at_ true 0).modulus
          ∧ (((at_ true (d % 3600).toNat).tracked : Int) - 0 - d) % ((at_ true 0).modulus : Int) = 0)
      ∧ (4 : Int).natAbs ≤ (at_ true 4).tolerance.toNat ∧ ((at_ true 4).backlog - 4).natAbs ≤ 1023
      ∧ 1023 < ({ at_ true 4 with backlog := -1020 }.backlog - 4).natAbs
      ∧ (({ at_ true 1024 with backlog := -1020 }.tracked : Int) - 0 - 4) % ((at_ true 0).modulus : Int) = 0
      ∧ (at_ true 5).tolerance.toNat < (5 : Int).natAbs ∧ plant.busy 0 = false := by decide +kernel

theorem witness_IndexEventsReferenceAndCheck_windows :
    let w := windowEntry 350 10 true true
    let s (position : Nat) (ok : Bool) (r : Run) : State :=
      (bench { (axisAt .running .encoder 400 false position 2) with indexPoint := some 0 }).setSlot 511 (.live w ok r)
    let settled (position : Nat) : State := (after (.indexEvent 0 1 FaultOrder.manual) (s position true Run.fresh)).finish 0
    let u := (after (.indexEvent 0 1 FaultOrder.manual)
      (bench { (axisAt .running .encoder 400 false 5 2) with indexPoint := some 100 })).finish 0
    (∀ ok, (s 5 ok Run.fresh).slot 511 = .live w ok Run.fresh) ∧ (s 5 true Run.fresh).busy 0 = false
      ∧ ((s 5 true Run.fresh).axis 0).referenced = false ∧ ((s 5 true Run.fresh).axis 0).indexPoint = some 0
      ∧ w.axis = 0 ∧ w.action = .window 0 10 ∧ Run.fresh.activity = .idle ∧ Run.fresh.spent = false
      ∧ (settled 5).inWindow w 10 = true ∧ { Run.fresh with spent := true }.spent = true
      ∧ u.inWindow w 10 = false
      ∧ ((s 5 true Run.fresh).slot 0).liveWith (fun e => e.axis == 0 && e.isWindow) = false := by
  decide +kernel

theorem witness_RateIntervalAddsWholeCounts :
    let s (backlog : Int) := bench { (axisAt .running .rate 400 true 0 backlog) with rate := -500000 }
    (∀ a, (s (-973)).applying a = false) ∧ (s (-974)).busy 0 = false ∧ (∀ a, (s (-974)).applying a = false)
      ∧ ((s (-973)).axis 0).state = .running ∧ ((s (-973)).axis 0).source = .rate
      ∧ (∀ a, ((s (-973)).axis a).state = .running → ((s (-973)).axis a).source = .rate →
        ((s (-973)).axis a).backlog.natAbs ≤ 1023
        ∧ (((s (-973)).axis a).backlog + (((s (-973)).axis a).remainder + ((s (-973)).axis a).rate).tdiv 10000).natAbs ≤ 1023)
      ∧ (∀ b, ((s (-974)).axis b).state = .running ∧ ((s (-974)).axis b).source = .rate ↔ b = 0)
      ∧ ((s (-974)).axis 0).backlog.natAbs ≤ 1023
      ∧ 1023 < (((s (-974)).axis 0).backlog + (((s (-974)).axis 0).remainder + ((s (-974)).axis 0).rate).tdiv 10000).natAbs := by
  decide +kernel

theorem witness_PlainLineChangesSetTheLevels :
    let halted := (bench (axisAt .halted .encoder 400 true 7 0)).axis 0
    let x := plant.axis 0
    halted.state ≠ .off ∧ halted.filter.toNat + 1 ≤ 1 ∧ halted.state ≠ .running
      ∧ x.state = .running ∧ x.source = .encoder ∧ x.filter.toNat + 1 ≤ 1 ∧ x.indexPoint = none
      ∧ plant.applying 0 = false ∧ plant.busy 0 = false := by decide +kernel

theorem witness_StepMovesTheAxis :
    let back := (bench (axisAt .running .encoder 400 true 0 (-1))).axis 0
    let halting := (bench (axisAt .halting .encoder 400 true 0 (-2))).axis 0
    plant.busy 0 = false ∧ (plant.axis 0).Steps ∧ 0 < (plant.axis 0).backlog ∧ back.Steps
      ∧ halting.Steps := by decide +kernel

theorem witness_WrapStepsApplyAndRelease :
    let forward := ((bench (axisAt .running .encoder 400 false 399 1)).setList 0 ⟨[.setLead 0 3], true, 0#8⟩)
    let reverse := { bench (axisAt .halting .encoder 400 true 0 (-2)) with condition := .releasing }
    let spared := forward.setSlot 7 (.live (markEntry 9) true { Run.fresh with spent := true })
    (forward.axis 0).Steps ∧ (forward.axis 0).Wraps ∧ (forward.list 0).closed = true
      ∧ (forward.axis 0).referenced = false
      ∧ forward.busy 0 = false ∧ (forward.axis 0).state = .running
      ∧ reverse.busy 0 = false ∧ (reverse.axis 0).Steps ∧ (reverse.axis 0).Wraps ∧ reverse.condition = .releasing
      ∧ (reverse.output 0).binding = some 0
      ∧ spared.slot 7 = .live (markEntry 9) true { Run.fresh with spent := true }
      ∧ (spared.slot 0).liveWith (fun e => e.axis == 0) = false := by decide +kernel

theorem witness_WrapStepsApplyAndRelease_last :
    let last (source : Source) (position : Nat) (backlog : Int) : Axis := axisAt .halting source 400 true position backlog
    (bench (last .stepped 399 1)).busy 0 = false
      ∧ ((bench (last .stepped 399 1)).axis 0).StepsLast ∧ ((bench (last .stepped 399 1)).axis 0).Wraps
      ∧ ((bench (last .rate 0 (-1))).axis 0).StepsLast ∧ ((bench (last .rate 0 (-1))).axis 0).Wraps
      ∧ ¬ ((bench (last .encoder 399 1)).axis 0).StepsLast ∧ ¬ ((bench (last .stepped 399 2)).axis 0).StepsLast := by
  decide +kernel

theorem witness_WrapStepsApplyAndRelease_spares :
    let spared := ((bench (axisAt .running .encoder 400 false 399 1)).setList 0 ⟨[.setLead 0 3], true, 0#8⟩).setSlot 7
      (.live (markEntry 9) true { Run.fresh with spent := true })
    spared.WrapSpares 0 7 ∧ spared.WrapSpares 0 0 := by decide +kernel

/-- A part at the wrap point whose closed list places, alters, retires and sets a lead, with an inconsistent entry of each
kind; slot 7 is a WINDOW of the output led, and the channel of AX1 has stopped before a handing of slot 1. -/
def atWrap : State :=
  let w := windowEntry 399 5 true true
  let s := bench (axisAt .running .encoder 400 true 399 1)
  let led (ok : Bool) : Slot := .live ⟨0, 395, .window 2 5, true, true, 0#16⟩ ok { Run.fresh with spent := true }
  (((((((((s.setOutput 2 (s.output 0)).setSlot 1 (.staged w true)).setSlot 2 (.staged w false)).setSlot 3
    (.live w true Run.fresh)).setSlot 4 (.live w false Run.fresh)).setSlot 5 (.live (markEntry 9) true Run.fresh)).setSlot 6
    (.live (markEntry 9) false Run.fresh)).setSlot 7 (led true)).setSlot 8 (led false)).setList 0
    ⟨[.place 1, .place 2, .alter 3 ⟨none, some 7, none, none, none, none, none⟩,
      .alter 4 ⟨none, some 7, none, none, none, none, none⟩, .retire 5, .retire 6, .setLead 2 3], true, 0#8⟩
    |>.setChannel 1 ⟨[.hand 1], []⟩

theorem witness_WrapStepsApplyAndRelease_items :
    let w := windowEntry 399 5 true true
    let led : Entry := ⟨0, 395, .window 2 5, true, true, 0#16⟩
    let t := after (.step ⟨0, []⟩) atWrap
    atWrap.busy 0 = false ∧ (atWrap.axis 0).Steps ∧ (atWrap.axis 0).Wraps ∧ (atWrap.list 0).closed = true
      ∧ (atWrap.axis 0).referenced = true
      ∧ ((atWrap.list 0).items.filterMap Item.handle?).Nodup ∧ ((atWrap.list 0).items.filterMap Item.leadOf?).Nodup
      ∧ w.axis = 0 ∧ Item.place 1 ∈ (atWrap.list 0).items ∧ atWrap.slot 1 = .staged w true
      ∧ Item.place 2 ∈ (atWrap.list 0).items ∧ atWrap.slot 2 = .staged w false
      ∧ (atWrap.channel 1).rest = .hand 1 :: [] ∧ Task.hand 1 ∉ ([] : List Task)
      ∧ Item.alter 3 ⟨none, some 7, none, none, none, none, none⟩ ∈ (atWrap.list 0).items
      ∧ atWrap.slot 3 = .live w true Run.fresh ∧ atWrap.slot 4 = .live w false Run.fresh
      ∧ Item.retire 5 ∈ (atWrap.list 0).items ∧ atWrap.slot 5 = .live (markEntry 9) true Run.fresh
      ∧ Item.setLead 2 3 ∈ (atWrap.list 0).items ∧ led.axis = 0 ∧ led.output = some 2
      ∧ (∀ h ∈ [7, 8], ∀ i ∈ (atWrap.list 0).items, i.names h = false)
      ∧ (∀ ok, atWrap.slot (if ok then 7 else 8) = .live led ok { Run.fresh with spent := true })
      ∧ (∀ e ∈ [w, led], t.effOn e ≠ 0 ∧ t.effOff e ≠ some 0 ∧ e.off?.any (t.inWindow e) = true) := by decide +kernel

theorem test_wrap_step_applies_each_item :
    let w := windowEntry 399 5 true true
    let t := after (.step ⟨0, []⟩) atWrap
    let fired : Run := ⟨.active none, true, ⟨1#16, some ⟨1#16, .none⟩, true, 0⟩⟩
    t.slot 1 = .live w true fired ∧ t.channel 1 = Channel.quiet
      ∧ t.slot 3 = .live (windowEntry 399 7 true true) true fired
      ∧ t.slot 2 = .fenced w false FireLog.fresh ∧ (t.slot 4).lifecycle = .fenced ∧ t.slot 5 = .free
      ∧ (t.slot 6).lifecycle = .fenced ∧ t.slot 7 = .live ⟨0, 395, .window 2 5, true, true, 0#16⟩ true fired
      ∧ (t.slot 8).lifecycle = .fenced ∧ (t.output 2).lead = 3 := by decide +kernel

theorem witness_CrossedEntriesFire :
    let entry (ok spent : Bool) (q : Qualifier) : State :=
      plant.setSlot 511 (.live (pulseEntry 100 q) ok { Run.fresh with spent := spent })
    let s := entry true false .forward
    let toggle : Entry := ⟨0, 0, .toggle 1 .reverse, true, true, 0#16⟩
    let wrapping := ((bench (axisAt .halting .encoder 400 true 0 (-2))).setSlot 3
      (.live toggle true { Run.fresh with spent := true })).setList 0 ⟨[.setLead 0 1], true, 0#8⟩
    s.busy 0 = false ∧ wrapping.busy 0 = false ∧ (s.axis 0).Steps ∧ (s.axis 0).referenced = true
      ∧ 511 < Config.slotCount ∧ s.slot 511 = .live (pulseEntry 100 .forward) true Run.fresh
      ∧ (pulseEntry 100 .forward).kind ≠ .window
      ∧ s.effOn (pulseEntry 100 .forward) = (s.axis 0).stepPoint ∧ 0 < (s.axis 0).backlog ∧ ¬ (s.axis 0).Wraps
      ∧ (pulseEntry 100 .forward).qualifier? = some .forward ∧ Run.fresh.spent = false
      ∧ (entry false false .forward).slot 511 = .live (pulseEntry 100 .forward) false Run.fresh
      ∧ (entry true true .either).slot 511 = .live (pulseEntry 100 .either) true { Run.fresh with spent := true }
      ∧ (entry true false .reverse).effOn (pulseEntry 100 .reverse) = 100
      ∧ ¬ ((pulseEntry 100 .reverse).qualifier? = some .either)
      ∧ (wrapping.axis 0).Steps ∧ (wrapping.axis 0).Wraps ∧ (wrapping.axis 0).backlog < 0
      ∧ wrapping.slot 3 = .live toggle true { Run.fresh with spent := true } ∧ toggle.notify = true
      ∧ wrapping.effOn toggle = (wrapping.axis 0).stepPoint ∧ toggle.qualifier? = some .reverse := by decide +kernel

/-- A part whose next step crosses the wrap point, with a closed list of one item and an entry in slot 3. -/
def wrapping (i : Item) (v : Slot) : State :=
  ((bench (axisAt .running .encoder 400 true 399 2)).setSlot 3 v).setList 0 ⟨[i], true, 0#8⟩

/-- The five ways to be in force, for a TOGGLE whose effective point is the wrap point. -/
theorem witness_CrossedEntriesFire_in_force :
    let e : Entry := ⟨0, 0, .toggle 1 .forward, true, true, 0#16⟩
    let before : Entry := { e with on := 7 }
    let led : Entry := { e with on := 5 }
    let spent : Run := { Run.fresh with spent := true }
    let values : AlterValues := ⟨some 0, none, none, none, none, none, none⟩
    ((plant.setSlot 3 (.live led true spent)).InForce 0 3 led true spent
      ∧ (wrapping (.setLead 0 1) (.live e true spent)).InForce 0 3 e true Run.fresh
      ∧ (wrapping (.setLead 1 5) (.live led true spent)).InForce 0 3 led true Run.fresh
      ∧ (wrapping (.place 3) (.staged e true)).InForce 0 3 e true Run.fresh
      ∧ (wrapping (.alter 3 values) (.live before true spent)).InForce 0 3 e true Run.fresh)
    ∧ (∀ c ∈ [(Item.setLead 0 1, e, Slot.live e true spent), (.setLead 1 5, led, .live led true spent),
        (.place 3, e, .staged e true), (.alter 3 values, e, .live before true spent)],
      let s := wrapping c.1 c.2.2
      s.busy 0 = false ∧ (s.axis 0).Steps ∧ (s.axis 0).referenced = true
        ∧ (after (.step ⟨0, []⟩) s).effOn c.2.1 = (s.axis 0).stepPoint)
    ∧ e.kind ≠ .window ∧ e.axis = 0 ∧ led.axis = 0 ∧ e.qualifier? = some .forward ∧ Run.fresh.spent = false := by
  refine ⟨⟨?_, ?_, ?_, ?_, ?_⟩, by decide +kernel⟩
  · exact .untouched _ _ _ (by decide +kernel) (by decide +kernel)
  · exact .spared _ _ ⟨.idle, true, FireLog.fresh⟩ (by decide +kernel) (by decide +kernel) (by decide +kernel)
  · exact .led _ _ ⟨.idle, true, FireLog.fresh⟩ 1 5 (by decide +kernel) (by decide +kernel) (by decide +kernel)
      (by decide +kernel) (by decide +kernel)
  · exact .placed _ (by decide +kernel) (by decide +kernel) (by decide +kernel)
  · exact .altered ⟨0, 7, .toggle 1 .forward, true, true, 0#16⟩ ⟨.idle, true, FireLog.fresh⟩
      ⟨some 0, none, none, none, none, none, none⟩ (by decide +kernel) (by decide +kernel) (by decide +kernel)

theorem witness_WindowsAreEnteredAndLeft :
    let w := windowEntry 100 150 true true
    let entering (ok : Bool) (r : Run) : State := plant.setSlot 0 (.live w ok r)
    let leaving : State := plant.setSlot 511 (.live (windowEntry 399 100 false false) true (activeRun none))
    let wrapping := ((bench (axisAt .halting .encoder 400 true 399 2)).setSlot 3
      (.live (windowEntry 0 5 true true) true { Run.fresh with spent := true })).setList 0 ⟨[.setLead 1 1], true, 0#8⟩
    plant.busy 0 = false ∧ (plant.axis 0).Steps ∧ (plant.axis 0).referenced = true ∧ 0 < Config.slotCount
      ∧ 511 < Config.slotCount
      ∧ (∀ ok, (entering ok Run.fresh).slot 0 = .live w ok Run.fresh)
      ∧ w.action = .window 0 150 ∧ 0 < (plant.axis 0).backlog ∧ Run.fresh.activity = .idle ∧ w.notify = true
      ∧ plant.effOn w ≠ plant.effective w 150 ∧ plant.effOn w = (plant.axis 0).stepPoint
      ∧ { Run.fresh with spent := true }.spent = true ∧ (activeRun none).activity ≠ .idle
      ∧ leaving.slot 511 = .live (windowEntry 399 100 false false) true (activeRun none)
      ∧ leaving.effOn (windowEntry 399 100 false false) ≠ (plant.axis 0).stepPoint
      ∧ leaving.effective (windowEntry 399 100 false false) 100 = (plant.axis 0).stepPoint
      ∧ (wrapping.axis 0).Steps ∧ (wrapping.axis 0).Wraps
      ∧ wrapping.slot 3 = .live (windowEntry 0 5 true true) true { Run.fresh with spent := true }
      ∧ wrapping.effOn (windowEntry 0 5 true true) = (wrapping.axis 0).stepPoint := by decide +kernel

/-- The five ways to be in force, for a WINDOW with its on or off point at the wrap point. -/
theorem witness_WindowsAreEnteredAndLeft_in_force :
    let e := windowEntry 0 9 true true
    let led := windowEntry 390 5 true true
    let values : AlterValues := ⟨some 390, some 0, none, none, none, none, none⟩
    let altered := windowEntry 390 0 true true
    let active : Run := ⟨.active none, true, FireLog.fresh⟩
    ((plant.setSlot 3 (.live e true active)).InForce 0 3 e true active
      ∧ (wrapping (.setLead 1 1) (.live e true { Run.fresh with spent := true })).InForce 0 3 e true Run.fresh
      ∧ (wrapping (.setLead 0 5) (.live led true active)).InForce 0 3 led true Run.fresh
      ∧ (wrapping (.place 3) (.staged e true)).InForce 0 3 e true Run.fresh
      ∧ (wrapping (.alter 3 values) (.live e true active)).InForce 0 3 altered true Run.fresh)
    ∧ (∀ c ∈ [(Item.setLead 1 1, e, Slot.live e true { Run.fresh with spent := true }),
        (.setLead 0 5, led, .live led true active), (.place 3, e, .staged e true),
        (.alter 3 values, altered, .live e true active)],
      let s := wrapping c.1 c.2.2
      let t := after (.step ⟨0, []⟩) s
      s.busy 0 = false ∧ (s.axis 0).Steps ∧ (s.axis 0).referenced = true ∧ t.effOff c.2.1 ≠ some (t.effOn c.2.1)
        ∧ (t.effOn c.2.1 = (s.axis 0).stepPoint ∨ t.effOff c.2.1 = some (s.axis 0).stepPoint)) := by
  refine ⟨⟨?_, ?_, ?_, ?_, ?_⟩, by decide +kernel⟩
  · exact .untouched _ _ _ (by decide +kernel) (by decide +kernel)
  · exact .spared _ _ ⟨.idle, true, FireLog.fresh⟩ (by decide +kernel) (by decide +kernel) (by decide +kernel)
  · exact .led _ _ ⟨.active none, true, FireLog.fresh⟩ 0 5 (by decide +kernel) (by decide +kernel) (by decide +kernel)
      (by decide +kernel) (by decide +kernel)
  · exact .placed _ (by decide +kernel) (by decide +kernel) (by decide +kernel)
  · exact .altered (windowEntry 0 9 true true) ⟨.active none, true, FireLog.fresh⟩
      ⟨some 390, some 0, none, none, none, none, none⟩ (by decide +kernel) (by decide +kernel) (by decide +kernel)

/-- A part whose next step takes the last count of AX0, an axis that halts, over the point 100, with the list as given. -/
def lastCount (source : Source) (l : PendingList) : State :=
  ((((bench (axisAt .halting source 400 true 99 1)).setList 0 l).setSlot 3 (.live (markEntry 100) true Run.fresh)).setSlot 4
    (.live (windowEntry 100 150 true true) true Run.fresh)).setSlot 5 (.live (markEntry 9) true Run.fresh)

/-- The last count fires a MARK and enters a WINDOW at its point; the list that the halt applies names neither. -/
theorem witness_StepKeeps_last :
    let s := lastCount .stepped ⟨[.retire 5, .setLead 1 3], true, 0#8⟩
    let t := after (.step ⟨0, []⟩) s
    s.StepKeeps 0 3 ∧ s.StepKeeps 0 4 ∧ s.busy 0 = false ∧ ¬ (s.axis 0).Steps ∧ (s.axis 0).referenced = true
      ∧ ¬ (s.axis 0).Wraps ∧ s.slot 3 = .live (markEntry 100) true Run.fresh
      ∧ s.slot 4 = .live (windowEntry 100 150 true true) true Run.fresh
      ∧ t.effOn (markEntry 100) = (s.axis 0).stepPoint ∧ t.effOn (windowEntry 100 150 true true) = (s.axis 0).stepPoint
      ∧ t.effective (windowEntry 100 150 true true) 150 ≠ (s.axis 0).stepPoint := by
  refine ⟨?_, ?_, ?_⟩ <;> decide +kernel

theorem test_step_does_not_keep_what_the_halt_changes :
    ¬ (lastCount .stepped ⟨[.retire 5, .setLead 1 3], true, 0#8⟩).StepKeeps 0 5
      ∧ ¬ (lastCount .encoder ⟨[], false, 0#8⟩).StepKeeps 0 3 :=
  ⟨by decide +kernel, by decide +kernel⟩

theorem witness_StepLeavesOtherEntriesAlone :
    let s := plant.setSlot 7 (.live (markEntry 101) true Run.fresh)
    let u := bench (axisAt .halting .encoder 400 false 1 (-2))
    s.busy 0 = false ∧ u.busy 0 = false ∧ (s.axis 0).Steps ∧ ¬ (s.axis 0).Wraps ∧ 7 < Config.slotCount
      ∧ (s.axis 0).stepPoint = 100
      ∧ (s.slot 7).liveWith (fun e => e.axis == 0 && (s.effOn e == 100 || s.effOff e == some 100)) = false
      ∧ (u.axis 0).Steps ∧ ¬ (u.axis 0).Wraps ∧ (u.axis 0).referenced = false := by decide +kernel

theorem witness_LastCountReachesHalted :
    let halting (source : Source) (backlog : Int) : State :=
      let s := bench (axisAt .halting source 400 true 399 backlog)
      { s with port := { s.port with state := .executing ⟨0x12#8, tag, .halting 0⟩ } }
    (halting .encoder 1).busy 0 = false ∧ ((halting .encoder 1).axis 0).state = .halting
      ∧ ((halting .encoder 1).axis 0).backlog = 1
      ∧ ((halting .encoder 1).axis 0).source = .encoder
      ∧ ((halting .stepped (-1)).axis 0).state = .halting ∧ ((halting .stepped (-1)).axis 0).backlog = -1
      ∧ ((halting .stepped (-1)).axis 0).source ≠ .encoder
      ∧ (halting .stepped (-1)).port.state = .executing ⟨0x12#8, tag, .halting 0⟩
      ∧ { halting .stepped 1 with condition := .releasing }.condition = .releasing
      ∧ ((halting .stepped 1).output 0).binding = some 0
      ∧ (((halting .stepped 1).setList 0 ⟨[.setLead 0 3], true, 1#8⟩).list 0).closed = true
      ∧ (halting .stepped 1).takeBreak.port.state = .draining ⟨0x12#8, tag, .halting 0⟩ := by decide +kernel

theorem witness_LastCountReachesHalted_closed_list :
    let w := windowEntry 1 200 true true
    let s := (((lastCount .stepped ⟨[.place 511, .place 510, .alter 5 ⟨some 10, none, none, none, none, none, none⟩,
      .retire 6, .retire 7, .setLead 1 3], true, 0#8⟩).setSlot 511 (.staged w true)).setSlot 510 (.staged w false)).setSlot 6
      (.live (markEntry 9) true Run.fresh) |>.setSlot 7 (.live (markEntry 9) false Run.fresh)
    let t := after (.step ⟨0, []⟩) s
    s.busy 0 = false ∧ (s.axis 0).state = .halting ∧ (s.axis 0).backlog = 1 ∧ (s.axis 0).position < (s.axis 0).modulus
      ∧ (s.list 0).closed = true ∧ ¬ (s.axis 0).Wraps ∧ ((s.list 0).items.filterMap Item.handle?).Nodup
      ∧ ((s.list 0).items.filterMap Item.leadOf?).Nodup
      ∧ s.slot 511 = .staged w true ∧ s.slot 510 = .staged w false ∧ s.slot 5 = .live (markEntry 9) true Run.fresh
      ∧ s.slot 6 = .live (markEntry 9) true Run.fresh ∧ s.slot 7 = .live (markEntry 9) false Run.fresh
      ∧ s.effOn (markEntry 9) ≠ (s.axis 0).stepPoint ∧ s.effOff (markEntry 9) ≠ some (s.axis 0).stepPoint
      ∧ (t.axis 0).referenced = true ∧ w.off?.any (t.inWindow w) = true := by decide +kernel

theorem witness_LastCountReachesHalted_encoder :
    let s := lastCount .encoder ⟨[], false, 0#8⟩
    let closed := (bench (axisAt .halting .encoder 400 true 0 (-1))).setList 0 ⟨[.setLead 0 3], true, 0#8⟩
    s.busy 0 = false ∧ (s.axis 0).state = .halting ∧ (s.axis 0).source = .encoder ∧ (s.list 0).closed = false
      ∧ closed.busy 0 = false ∧ (closed.list 0).closed = true ∧ (closed.axis 0).Wraps
      ∧ (after (.step ⟨0, []⟩) s).slot 3
        = .live (markEntry 100) true ⟨.idle, false, ⟨1#16, some ⟨0#16, .forward⟩, true, 0⟩⟩ := by decide +kernel

theorem witness_ActivityEndsWithoutAFire :
    let s := plant.setSlot 21 (.live (pulseEntry 100 .either) true (activeRun (some 1000)))
    let due := bench { (axisAt .faulted .encoder 400 false 7 0) with silentDue := true }
    s.slot 21 = .live (pulseEntry 100 .either) true (activeRun (some 1000))
      ∧ (pulseEntry 100 .either).action = .pulse 0 1000 .either ∧ (activeRun (some 1000)).activity = .active (some 1000)
      ∧ 999 ≠ 1000 ∧ 1001 ≠ 1000 ∧ due.busy 0 = false ∧ (due.axis 0).silentDue = true := by decide +kernel

theorem witness_StoppedWorkIsResumed :
    let s := plant.setSlot 5 (.live (windowEntry 100 150 false false) false Run.fresh)
    (∃ t, exec (.step ⟨0, [.fenceOutput 5]⟩) s = .next t ∧ t.busy 0 = true)
      ∧ ∃ t, exec (.step ⟨0, [.handing 7]⟩) s = .next t ∧ t.busy 0 = false :=
  ⟨⟨fencing [.fenceOutput 5], rfl, by decide +kernel⟩, ⟨fencing [.handing 7], rfl, by decide +kernel⟩⟩

theorem witness_StoppedWorkIsResumed_requests :
    let s := plant.setSlot 5 (.live (windowEntry 1 2 false false) false Run.fresh)
    s.ReadyQuiet tag ∧ ([0#8, 5#8] : List Byte).length ≤ 60
      ∧ (sendStopping 0x38#8 [0#8, 5#8] [.fenceOutput 5, .fenceReport 5] s).background.background
        = send 0x38#8 [0#8, 5#8] s
      ∧ (sendStopping 0x38#8 [0#8, 5#8] [.fenceOutput 5] s).port.state ≠ (send 0x38#8 [0#8, 5#8] s).port.state := by
  decide +kernel

theorem witness_PiecesOfWorkComeOneAtATime :
    let stop (s : State) : State := (s.setChannel 0 ⟨[.hand 7], []⟩).setChannel 2 ⟨[.application true], []⟩
    let at_ (state : AxisState) : State := (bench (axisAt state .encoder 400 true 7 0)).setChannel 0 ⟨[.hand 7], []⟩
    let config : AxisConfig := ⟨.rate, 400, none, 4#8, false, 0#8, .safe⟩
    let index : State := (bench { runner with indexPoint := some 0 }).setChannel 0 ⟨[.hand 7], []⟩
    (∀ state ∈ [AxisState.halted, .running, .faulted],
        (at_ state).ReadyAlone tag ∧ (at_ state).busy 0 = true ∧ ((at_ state).axis 0).state = state
          ∧ 399 < ((at_ state).axis 0).modulus ∧ ((at_ state).axis 0).modulus ≤ 65536)
      ∧ config.InRange ∧ config.modulus = ((at_ .halted).axis 0).modulus
      ∧ index.busy 0 = true ∧ (index.axis 0).state = .running ∧ (index.axis 0).source = .encoder
      ∧ (index.axis 0).indexPoint.isSome = true ∧ (index.axis 0).lines.z = false ∧ (index.axis 0).filter.toNat + 1 ≤ 1
      ∧ (stop plant).Ready tag ∧ (stop plant).applying 2 = true
      ∧ argLength 0x30#8 = some (List.replicate 15 (0#8 : Byte)).length
      ∧ 0x30#8 ∉ [0x01#8, 0x02#8, 0x03#8, 0x04#8, 0x21#8, 0x22#8, 0x23#8, 0x50#8, 0x51#8, 0x60#8, 0x61#8] := by decide +kernel

/-- AX0 RUNNING and REFERENCED at 99, with an entry in slot 511, a list, and the tasks its channel is at. -/
def atTask (v : Slot) (l : PendingList) (tasks : List Task) : State :=
  ((plant.setSlot 511 v).setList 0 l).setChannel 0 ⟨tasks, []⟩

theorem witness_WorkStopsBetweenClaims_fences :
    let w := windowEntry 50 99 true true
    let s (t : Task) : State := atTask (.live w false (activeRun none)) ⟨[.retire 511], true, 3#8⟩ [t, .haltIfDone]
    let open_ := atTask (.live (markEntry 9) false Run.fresh) ⟨[], false, 0#8⟩ []
    (∀ t ∈ [Task.cross 511 .forward, .boundary 511 99 .reverse, .settle 511, .jumpDrop 511, .application true],
        (s t).slot 511 = .live w false (activeRun none) ∧ (s t).channel 0 = ⟨t :: [.haltIfDone], []⟩)
      ∧ w.axis = 0 ∧ (plant.axis 0).referenced = true ∧ (plant.axis 0).state ≠ .faulted ∧ w.output = some 0
      ∧ (s (.settle 511)).list 0 = ⟨.retire 511 :: [], true, ((s (.settle 511)).list 0).change⟩
      ∧ (Item.retire 511).names 511 = true
      ∧ (s (.fenceReport 511 0 99 0#16)).channel 0 = ⟨.fenceReport 511 0 99 0#16 :: [.haltIfDone], []⟩
      ∧ (atTask .free ⟨[], false, 0#8⟩ [.fenceOutput 511 0 .window true, .fenceReport 511 0 99 0#16]).channel 0
        = ⟨.fenceOutput 511 0 .window true :: .fenceReport 511 0 99 0#16 :: [], []⟩
      ∧ (atTask .free ⟨[], false, 0#8⟩ [.fenceReport 511 0 99 0#16]).channel 0 = ⟨[.fenceReport 511 0 99 0#16], []⟩
      ∧ (atTask .free ⟨[], false, 0#8⟩ [.hand 511]).channel 0 = ⟨[.hand 511], []⟩ ∧ 511 < Config.slotCount
      ∧ open_.ReadyAlone tag ∧ open_.slot 511 = .live (markEntry 9) false Run.fresh ∧ (markEntry 9).output = none
      ∧ (atTask (.live w false Run.fresh) ⟨[], false, 0#8⟩ []).ReadyAlone tag := by decide +kernel

theorem witness_WorkStopsBetweenClaims_fires :
    let w := windowEntry 50 150 true true
    let toggle : Entry := ⟨0, 99, .toggle 1 .reverse, true, true, 0#16⟩
    let pulse : Entry := { pulseEntry 99 .forward with notify := true }
    let s (e : Entry) (t : Task) : State := atTask (.live e true Run.fresh) ⟨[], false, 0#8⟩ [t, .haltIfDone]
    (∀ c ∈ [(markEntry 99, Task.cross 511 .forward), (pulse, .cross 511 .forward), (toggle, .cross 511 .reverse),
        (w, .boundary 511 50 .forward), (w, .boundary 511 150 .reverse), (w, .settle 511), (w, .jumpSettle 511)],
      (s c.1 c.2).channel 0 = ⟨c.2 :: [.haltIfDone], []⟩ ∧ (s c.1 c.2).slot 511 = .live c.1 true Run.fresh
        ∧ c.1.axis = 0 ∧ c.1.notify = true)
      ∧ Run.fresh.spent = false ∧ Run.fresh.activity = .idle
      ∧ (markEntry 99).qualifier? = some .either ∧ pulse.qualifier? = some .forward ∧ toggle.qualifier? = some .reverse
      ∧ w.kind = .window ∧ (s w (.boundary 511 50 .forward)).effOn w = 50
      ∧ (s w (.boundary 511 150 .reverse)).effOn w ≠ 150
      ∧ w.off?.any ((s w (.settle 511)).inWindow w) = true ∧ (plant.axis 0).referenced = true := by decide +kernel

theorem test_fire_stops_before_its_handing :
    let toggle : Entry := ⟨0, 99, .toggle 1 .reverse, true, true, 0#16⟩
    let t := after (.step ⟨0, [.handing 511]⟩)
      (atTask (.live toggle true Run.fresh) ⟨[], false, 0#8⟩ [.cross 511 .reverse, .haltIfDone])
    (t.output 1).latch = true ∧ t.channel 0 = ⟨[.hand 511, .haltIfDone], [1]⟩ ∧ t.notifySet = [] := by decide +kernel

theorem witness_PinLevelIsComposed :
    let at_ (x : Output) : Output := (plant.setOutput 0 x).output 0
    State.reset.phase = .held ∧ plant.phase ≠ .held
      ∧ (at_ { Output.reset with safeLevel := .low }).safeHold = true
      ∧ (at_ { Output.reset with safeHold := false, faultHold := true, safeLevel := .high }).faultHold = true
      ∧ (at_ { Output.reset with safeHold := false, mode := .isolated, safeLevel := .hold }).mode = .isolated
      ∧ ¬ ((plant.output 0).safeHold = true ∨ (plant.output 0).faultHold = true) ∧ (plant.output 0).mode = .follow
      ∧ (at_ { (plant.output 0) with mode := .forceActive }).mode = .forceActive
      ∧ (at_ { (plant.output 0) with mode := .forcePassive }).mode = .forcePassive := by decide +kernel

theorem witness_ConfigOutputWritesTheRecord :
    let config (binding : Option AxisId) (drive : DriveType) : OutputConfig :=
      ⟨0, binding, drive, .activeLow, .hold, true⟩
    let targeted := plant.setSlot 3 (.live (windowEntry 1 2 false false) true Run.fresh)
    let small := (plant.setAxis 1 (axisAt .halted .rate 16 true 0 0)).setOutput 0 { (plant.output 0) with lead := 16 }
    plant.ReadyQuiet tag ∧ (config (some 1) .level).binding = some 1 ∧ (plant.axis 1).state = .off
      ∧ targeted.ReadyQuiet tag ∧ (targeted.axis 0).state ≠ .off ∧ (targeted.output 0).drive ≠ .toggle
      ∧ 0 < targeted.targeting 0
      ∧ small.ReadyQuiet tag ∧ (small.axis 1).state ≠ .off ∧ small.targeting 0 = 0 ∧ small.leadWaits 0 = false
      ∧ (small.axis 1).modulus ≤ (small.output 0).lead.natAbs
      ∧ plant.targeting 0 = 0 ∧ plant.leadWaits 0 = false ∧ ¬ (plant.axis 0).modulus ≤ (plant.output 0).lead.natAbs
      ∧ plant.condition ≠ .releasing ∧ (config (some 0) .toggle).drive = .toggle
      ∧ { plant with condition := .releasing }.ReadyQuiet tag
      ∧ ({ plant with condition := .releasing }.output 0).binding ≠ (config none .level).binding := by decide +kernel

/-- A part in which the fence of an ACTIVE WINDOW of OUT0 has stopped before its output, its entry retired since. -/
def leftFence : State :=
  (plant.setOutput 0 { (plant.output 0) with windowCount := 1 }).setChannel 3 ⟨[.fenceOutput 5 0 .window true, .hand 5], []⟩

theorem witness_ConfigOutputWritesTheRecord_waiting_fence :
    let moved : OutputConfig := ⟨0, none, .level, .activeLow, .hold, true⟩
    leftFence.ReadyAlone tag ∧ leftFence.targeting 0 = 0 ∧ leftFence.leadWaits 0 = false
      ∧ (leftFence.output 0).binding ≠ moved.binding ∧ leftFence.condition ≠ .releasing
      ∧ leftFence.channel 3 = ⟨.fenceOutput 5 0 .window true :: [.hand 5], []⟩
      ∧ (∀ a, ∀ k ∈ ((leftFence.setChannel 3 ⟨[.hand 5], []⟩).channel a).rest, k.fences 0 = false)
      ∧ { moved with binding := some 0 }.binding = (leftFence.output 0).binding
      ∧ { moved with binding := some 0 }.drive = (leftFence.output 0).drive := by decide +kernel

theorem witness_ConfigOutputWritesTheRecord_counts : leftFence.CountsOk := by
  refine ⟨⟨by decide +kernel, fun t h => ?_⟩, by decide +kernel⟩
  exact absurd h (by show ¬ (none = some (Work.testing t)); simp)

theorem witness_ModeAndFaultHoldRequests :
    plant.ReadyQuiet tag ∧ 32 ≤ (32#8 : Byte).toNat ∧ 4 ≤ (4#8 : Byte).toNat ∧ plant.fencedTargeting 0 = 0
      ∧ 0 < (plant.setSlot 4 (.fenced (windowEntry 1 2 false false) false FireLog.fresh)).fencedTargeting 0 := by
  decide +kernel

theorem witness_PlaceReservesTheLowestFreeSlot :
    let e := windowEntry 0 399 false false
    let sealed_ := plant.setList 0 ⟨[], true, 0#8⟩
    let used := plant.setSlot 0 .disabled
    let full := { plant with table := handles.map (fun h => (h, Slot.disabled)) }
    plant.ReadyQuiet tag ∧ e.InRange ∧ (plant.axis 0).state ≠ .off ∧ (plant.list 0).closed = false
      ∧ plant.outputFits e = true ∧ e.pointsFit (plant.axis 0).modulus = true ∧ plant.wouldSpan e = false
      ∧ (plant.list 0).items.length < 32 ∧ plant.lowestFree = some 0 ∧ used.lowestFree = some 1
      ∧ (plant.axis 0).state = .running
      ∧ sealed_.ReadyQuiet tag ∧ (sealed_.axis 0).state ≠ .off ∧ (sealed_.list 0).closed = true
      ∧ full.ReadyQuiet tag ∧ (full.axis 0).state ≠ .off ∧ (full.list 0).closed = false ∧ full.outputFits e = true
      ∧ full.wouldSpan e = false ∧ full.lowestFree = none
      ∧ (⟨1, 0, .mark .either, false, true, 0#16⟩ : Entry).InRange ∧ (plant.axis 1).state = .off := by decide +kernel

theorem witness_PlaceReservesTheLowestFreeSlot_applied :
    let e := windowEntry 0 399 false false
    let at_ (state : AxisState) : State := bench (axisAt state .stepped 400 true 7 0)
    ∀ state ∈ [AxisState.halted, .faulted], (at_ state).ReadyQuiet tag ∧ ((at_ state).axis 0).state = state
      ∧ (at_ state).list 0 = ⟨[], false, ((at_ state).list 0).change⟩ ∧ (at_ state).lowestFree = some 0
      ∧ (at_ state).outputFits e = true ∧ (at_ state).wouldSpan e = false := by decide +kernel

theorem witness_PlaceReservesTheLowestFreeSlot_refusals :
    plant.ReadyQuiet tag ∧ (plant.axis 0).state ≠ .off ∧ (plant.list 0).closed = false
      ∧ (⟨0, 5, .toggle 0 .either, false, true, 0#16⟩ : Entry).InRange
      ∧ plant.outputFits ⟨0, 5, .toggle 0 .either, false, true, 0#16⟩ = false
      ∧ (windowEntry 0 400 false false).InRange ∧ (windowEntry 0 400 false false).pointsFit 400 = false
      ∧ (windowEntry 7 7 false false).pointsFit 400 = false
      ∧ (windowEntry 20 10 true false).InRange ∧ plant.wouldSpan (windowEntry 20 10 true false) = true
      ∧ (plant.setList 0 ⟨List.replicate 32 (.retire 0), false, 0#8⟩).ReadyQuiet tag
      ∧ 32 ≤ ((plant.setList 0 ⟨List.replicate 32 (.retire 0), false, 0#8⟩).list 0).items.length := by decide +kernel

theorem witness_PlaceReservesTheLowestFreeSlot_closes :
    let e := windowEntry 0 399 false false
    let at_ (state : AxisState) : State := (bench (axisAt state .stepped 400 true 7 0)).setList 0 ⟨[.setLead 0 3], false, 1#8⟩
    ∀ state ∈ [AxisState.halted, .faulted], (at_ state).ReadyQuiet tag ∧ ((at_ state).axis 0).state = state
      ∧ ((at_ state).list 0).closed = false ∧ ((at_ state).list 0).items.length < 32 ∧ (at_ state).lowestFree = some 0
      ∧ (at_ state).outputFits e = true ∧ (at_ state).wouldSpan e = false ∧ e.pointsFit 400 = true := by decide +kernel

/-- Values for a WINDOW at the bounds of AX0's modulus. -/
def someValues : AlterValues := ⟨some 0, some 399, none, none, some false, some true, some 5#16⟩

theorem witness_AlterWaitsInTheList :
    let e := windowEntry 10 20 false false
    let live := plant.setSlot 5 (.live e true Run.fresh)
    let staged := (plant.setSlot 511 (.staged e true)).setList 0 ⟨[.place 511], false, 1#8⟩
    let retiring := live.setList 0 ⟨[.retire 5], false, 1#8⟩
    let spoiled := plant.setSlot 5 (.live e false Run.fresh)
    someValues.InRange ∧ e.kind ≠ .mark ∧ 511 < 512
      ∧ live.ReadyQuiet tag ∧ live.slot 5 = .live e true Run.fresh ∧ (live.axis 0).state = .running
      ∧ (live.list 0).closed = false ∧ (live.list 0).itemOf 5 = none ∧ (live.list 0).items.length < 32
      ∧ someValues.alien e = false ∧ someValues.pointsFit (someValues.writeTo e) (live.axis 0).modulus = true
      ∧ live.wouldSpan (someValues.writeTo e) = false
      ∧ staged.ReadyQuiet tag ∧ staged.slot 511 = .staged e true ∧ (staged.list 0).itemOf 511 = some (.place 511)
      ∧ staged.wouldSpan (someValues.writeTo e) = false
      ∧ spoiled.ReadyQuiet tag ∧ spoiled.slot 5 = .live e false Run.fresh
      ∧ (plant.setSlot 5 (.staged e false)).slot 5 = .staged e false
      ∧ retiring.ReadyQuiet tag ∧ retiring.slot 5 = .live e true Run.fresh
      ∧ (retiring.list 0).itemOf 5 = some (.retire 5)
      ∧ (live.setList 0 ⟨[], true, 1#8⟩).slot 5 = .live e true Run.fresh
      ∧ (live.slot 5).inService (fun e' => e' == e) = true ∧ (live.slot 5).failsCheck = false
      ∧ (live.slot 5).lifecycle ≠ .fenced
      ∧ ((live.setList 0 ⟨[], true, 1#8⟩).list 0).closed = true
      ∧ (plant.setSlot 5 (.fenced e false FireLog.fresh)).slot 5 = .fenced e false FireLog.fresh
      ∧ (plant.slot 5).lifecycle ∈ [Lifecycle.free, .unread, .disabled] := by decide +kernel

theorem witness_AlterWaitsInTheList_merges :
    let held : AlterValues := ⟨some 3, none, none, none, some true, none, none⟩
    let live := (plant.setSlot 5 (.live (windowEntry 10 20 false false) true Run.fresh)).setList 0
      ⟨[.alter 5 held], false, 1#8⟩
    let full := live.setList 0 ⟨List.replicate 32 (.setLead 0 1), false, 1#8⟩
    let mark := plant.setSlot 5 (.live (markEntry 10) true Run.fresh)
    live.ReadyQuiet tag ∧ (live.list 0).itemOf 5 = (some held).map (Item.alter 5)
      ∧ { someValues with off := some 400 }.InRange
      ∧ { someValues with off := some 400 }.pointsFit (windowEntry 0 400 false true) (live.axis 0).modulus = false
      ∧ { someValues with duration := some 10 }.InRange
      ∧ { someValues with duration := some 10 }.alien (windowEntry 10 20 false false) = true
      ∧ live.wouldSpan (windowEntry 20 10 true false) = true
      ∧ full.ReadyQuiet tag ∧ (full.list 0).itemOf 5 = none ∧ 32 ≤ (full.list 0).items.length
      ∧ mark.slot 5 = .live (markEntry 10) true Run.fresh ∧ (markEntry 10).kind = .mark
      ∧ ({ someValues with off := none, notify := some false }.alien (markEntry 10)) = false := by decide +kernel

theorem test_alter_of_a_mark_keeps_notify :
    let s := plant.setSlot 5 (.live (markEntry 10) true Run.fresh)
    (send 0x31#8 [0#8, 5#8, 0x20#8, 0#8, 0#8, 0#8, 0#8, 0#8, 0#8, 0#8, 0#8, 0#8, 0#8, 0#8, 1#8] s).list 0
      = ⟨[.alter 5 ⟨none, none, none, none, none, some true, none⟩], true, 1#8⟩ := by decide +kernel

theorem witness_RetireByLifecycleState :
    let e := windowEntry 10 20 false false
    let live := plant.setSlot 5 (.live e true Run.fresh)
    let staged := (plant.setSlot 511 (.staged e true)).setList 0 ⟨[.place 511], false, 1#8⟩
    let fenced (member : Bool) : State := plant.setSlot 0 (.fenced e false { FireLog.fresh with notifyPending := member })
    511 < 512 ∧ live.ReadyQuiet tag ∧ live.slot 5 = .live e true Run.fresh ∧ (live.axis 0).state ≠ .off
      ∧ (live.list 0).closed = false ∧ (live.list 0).itemOf 5 = none ∧ (live.list 0).items.length < 32
      ∧ staged.ReadyQuiet tag ∧ staged.slot 511 = .staged e true ∧ (staged.axis 0).state ≠ .off
      ∧ (staged.list 0).closed = false ∧ (staged.list 0).itemOf 511 = some (.place 511)
      ∧ (∀ m, (fenced m).ReadyQuiet tag ∧ (fenced m).slot 0 = .fenced e false { FireLog.fresh with notifyPending := m })
      ∧ (plant.setSlot 5 (.live e false Run.fresh)).slot 5 = .live e false Run.fresh
      ∧ (plant.setSlot 5 (.staged e false)).slot 5 = .staged e false
      ∧ ((live.setList 0 ⟨[.alter 5 someValues], false, 1#8⟩).list 0).itemOf 5 = some (.alter 5 someValues)
      ∧ ((live.setList 0 ⟨[.retire 5], false, 1#8⟩).list 0).itemOf 5 = some (.retire 5)
      ∧ ((live.setList 0 ⟨List.replicate 32 (.setLead 0 1), false, 1#8⟩).list 0).itemOf 5 = none
      ∧ (live.axis 0).state = .running ∧ (live.slot 5).inService (fun e' => e' == e) = true
      ∧ ((live.setList 0 ⟨[], true, 1#8⟩).list 0).closed = true
      ∧ (plant.slot 5).lifecycle ∈ [Lifecycle.free, .unread, .disabled] := by
  decide +kernel

theorem witness_SetLeadWaitsInTheList :
    let small := bench (axisAt .running .encoder 16 true 3 1)
    let spanning := plant.setSlot 5 (.live (windowEntry 10 20 true false) true Run.fresh)
    let named := plant.setList 0 ⟨[.setLead 0 3], false, 1#8⟩
    plant.ReadyQuiet tag ∧ (plant.output 9).binding = none ∧ (plant.output 0).binding = some 0
      ∧ (plant.axis 0).state ≠ .off ∧ (plant.list 0).closed = false
      ∧ small.ReadyQuiet tag ∧ (small.output 0).binding = some 0 ∧ (small.axis 0).modulus ≤ (16 : Int).natAbs
      ∧ (small.axis 0).modulus ≤ (-2048 : Int).natAbs ∧ ¬ (small.axis 0).modulus ≤ (15 : Int).natAbs
      ∧ spanning.ReadyQuiet tag ∧ (15 : Int).natAbs < (spanning.axis 0).modulus
      ∧ spanning.leadWouldSpan 0 0 15 = true ∧ plant.leadWouldSpan 0 0 15 = false
      ∧ (plant.list 0).items.any (Item.leads 0) = false ∧ (plant.list 0).items.length < 32
      ∧ (plant.axis 0).state = .running ∧ ((plant.setList 0 ⟨[], true, 1#8⟩).list 0).closed = true
      ∧ ((plant.setList 0 ⟨List.replicate 32 (.retire 0), false, 1#8⟩).list 0).items.any (Item.leads 0) = false
      ∧ 32 ≤ ((plant.setList 0 ⟨List.replicate 32 (.retire 0), false, 1#8⟩).list 0).items.length
      ∧ named.ReadyQuiet tag ∧ named.leadWouldSpan 0 0 15 = false ∧ (named.list 0).items.any (Item.leads 0) = true := by
  decide +kernel

/-- The edits that close and apply, on a HALTED and on a FAULTED axis: slot 5 is LIVE, slot 511 STAGED. -/
def closing (state : AxisState) (items : List Item) : State :=
  (((bench (axisAt state .stepped 400 true 7 0)).setSlot 5 (.live (windowEntry 10 20 false false) true Run.fresh)).setSlot 511
    (.staged (windowEntry 10 20 false false) true)).setList 0 ⟨items, false, 1#8⟩

theorem witness_edits_close_and_apply :
    let e := windowEntry 10 20 false false
    (∀ state ∈ [AxisState.halted, .faulted],
      ∀ items ∈ [[Item.place 511], [.place 511, .alter 5 ⟨some 3, none, none, none, none, none, none⟩],
        [.place 511, .setLead 0 3]],
      let s := closing state items
      s.ReadyQuiet tag ∧ (s.axis 0).state = state ∧ (s.list 0).closed = false ∧ (s.list 0).items.length < 32
        ∧ s.slot 5 = .live e true Run.fresh ∧ s.slot 511 = .staged e true ∧ (s.list 0).itemOf 511 = some (.place 511)
        ∧ s.wouldSpan (someValues.writeTo e) = false ∧ s.leadWouldSpan 0 0 15 = false ∧ (s.output 0).binding = some 0)
      ∧ ((closing .halted [.place 511]).list 0).itemOf 5 = none
      ∧ ((closing .halted [.place 511, .setLead 0 3]).list 0).items.any (Item.leads 0) = true
      ∧ ((closing .halted [.place 511]).list 0).items.any (Item.leads 0) = false
      ∧ someValues.InRange ∧ someValues.alien e = false ∧ someValues.pointsFit (someValues.writeTo e) 400 = true
      ∧ [Item.place 511, .setLead 0 3].filter (fun i => !i.names 511) ≠ [] := by decide +kernel

theorem witness_CloseAndDiscardAList :
    let s := (plant.setSlot 14 (.staged (markEntry 1) true)).setList 0 ⟨[.place 14], false, 5#8⟩
    let closed := s.setList 0 ⟨[.place 14], true, 5#8⟩
    let empty := plant.setList 0 ⟨[], true, 5#8⟩
    s.ReadyQuiet tag ∧ (s.axis 0).state = .running ∧ (s.list 0).closed = false ∧ (s.list 0).items ≠ []
      ∧ (s.slot 14).lifecycle = .staged ∧ Item.place 14 ∈ (s.list 0).items
      ∧ ¬ ((s.slot 0).lifecycle = .staged ∧ Item.place 0 ∈ (s.list 0).items)
      ∧ plant.ReadyQuiet tag ∧ (plant.axis 1).state = .off ∧ (plant.axis 0).state ≠ .off
      ∧ (plant.list 0).closed = false ∧ (plant.list 0).items = []
      ∧ closed.ReadyQuiet tag ∧ (closed.list 0).closed = true
      ∧ empty.ReadyQuiet tag ∧ (empty.list 0).items = [] ∧ (empty.list 0).closed = true := by decide +kernel

theorem witness_EachItemIsAppliedOnClose :
    let s (i : Item) (v : Slot) : State :=
      ((bench (axisAt .halted .encoder 400 false 7 0)).setSlot 5 v).setList 0 ⟨[i], false, 5#8⟩
    let e := markEntry 1
    let active := s (.setLead 0 3) (.live (pulseEntry 1 .either) true (activeRun (some 1000)))
    (∀ i ∈ [Item.place 5, .alter 5 someValues, .retire 5, .setLead 0 3],
        (s i .free).ReadyQuiet tag ∧ ((s i .free).list 0).items = [i] ∧ ((s i .free).list 0).closed = false)
      ∧ (active.axis 0).state = .halted ∧ (active.axis 0).referenced = false ∧ e.axis = 0
      ∧ (s (.place 5) (.staged e true)).slot 5 = .staged e true
      ∧ (s (.retire 5) (.live e true Run.fresh)).slot 5 = .live e true Run.fresh
      ∧ active.slot 5 = .live (pulseEntry 1 .either) true (activeRun (some 1000))
      ∧ (pulseEntry 1 .either).output = some 0 ∧ (active.slot 6).liveWith (Entry.targets 0) = false := by decide +kernel

theorem witness_EachItemIsAppliedOnClose_led :
    let w := windowEntry 1 9 true true
    let s (ok : Bool) (r : Run) : State :=
      ((bench (axisAt .halted .rate 400 true 7 0)).setSlot 511 (.live w ok r)).setList 0 ⟨[.setLead 0 1], false, 5#8⟩
    (∀ ok, (s ok (activeRun none)).ReadyQuiet tag ∧ (s ok (activeRun none)).slot 511 = .live w ok (activeRun none))
      ∧ ((s true Run.fresh).axis 0).state = .halted ∧ ((s true Run.fresh).axis 0).referenced = true
      ∧ ((s true Run.fresh).list 0).items = [.setLead 0 1] ∧ w.output = some 0 ∧ w.axis = 0
      ∧ Run.fresh.spent = false ∧ w.off?.any ((send 0x34#8 [0#8] (s true (activeRun none))).inWindow w) = true
      ∧ { Run.fresh with spent := true }.spent = true := by decide +kernel

theorem witness_EachItemIsAppliedOnClose_settled :
    let s (state : AxisState) (i : Item) (v : Slot) : State :=
      ((bench (axisAt state .stepped 400 true 7 0)).setSlot 5 v).setList 0 ⟨[i], false, 5#8⟩
    let w := windowEntry 5 9 true true
    let inside := s .halted (.place 5) (.staged w true)
    let outside := s .halted (.place 5) (.staged (windowEntry 9 5 false false) true)
    inside.ReadyQuiet tag ∧ (inside.axis 0).state = .halted ∧ (inside.axis 0).referenced = true ∧ 5 < 512
      ∧ (inside.list 0).items = [.place 5] ∧ inside.slot 5 = .staged w true ∧ w.action = .window 0 9
      ∧ inside.inWindow w 9 = true ∧ outside.inWindow (windowEntry 9 5 false false) 5 = false
      ∧ ((s .faulted (.place 5) (.staged w true)).axis 0).state = .faulted
      ∧ (s .halted (.place 5) (.staged w false)).slot 5 = .staged w false
      ∧ (s .faulted (.retire 5) (.live w false Run.fresh)).slot 5 = .live w false Run.fresh
      ∧ ((s .faulted (.retire 5) (.live w false Run.fresh)).list 0).items = [.retire 5] := by decide +kernel

theorem witness_EachItemIsAppliedOnClose_halted :
    let s (i : Item) (v : Slot) : State :=
      ((bench (axisAt .halted .stepped 400 true 7 0)).setSlot 5 v).setList 0 ⟨[i], false, 5#8⟩
    let w := windowEntry 50 60 true true
    let values (on off : Nat) : AlterValues := ⟨some on, some off, none, none, none, none, none⟩
    let altered (on off : Nat) : State := s (.alter 5 (values on off)) (.live w true (activeRun none))
    (s (.place 5) (.staged (markEntry 7) true)).ReadyQuiet tag
      ∧ ((s (.place 5) (.staged (markEntry 7) true)).axis 0).state = .halted
      ∧ (s (.place 5) (.staged (markEntry 7) true)).slot 5 = .staged (markEntry 7) true
      ∧ (markEntry 7).off? = none ∧ (markEntry 7).axis = 0
      ∧ (altered 5 9).ReadyQuiet tag ∧ ((altered 5 9).axis 0).referenced = true
      ∧ (altered 5 9).slot 5 = .live w true (activeRun none) ∧ ((altered 5 9).list 0).items = [.alter 5 (values 5 9)]
      ∧ ((values 5 9).writeTo w).action = .window 0 9 ∧ (altered 5 9).inWindow ((values 5 9).writeTo w) 9 = true
      ∧ (altered 8 9).inWindow ((values 8 9).writeTo w) 9 = false
      ∧ ((s (.retire 5) (.live w true (activeRun none))).list 0).items = [.retire 5]
      ∧ (s (.retire 5) (.live w true (activeRun none))).slot 5 = .live w true (activeRun none) := by decide +kernel

theorem test_close_settles_an_altered_entry :
    let s := ((bench (axisAt .halted .stepped 400 true 7 0)).setSlot 5
      (.live (windowEntry 50 60 true true) true Run.fresh)).setList 0
      ⟨[.alter 5 ⟨some 5, some 9, none, none, none, none, none⟩], false, 5#8⟩
    let t := send 0x34#8 [0#8] s
    t.slot 5 = .live (windowEntry 5 9 true true) true ⟨.active none, true, ⟨1#16, some ⟨0#16, .none⟩, true, 0⟩⟩
      ∧ (t.output 0).windowCount = 1 := by decide +kernel

theorem test_application_drops_an_inconsistent_entry :
    let s := ((bench (axisAt .halted .encoder 400 false 7 0)).setSlot 5 (.staged (markEntry 1) false)).setList 0
      ⟨[.place 5], false, 5#8⟩
    let t := send 0x34#8 [0#8] s
    t.slot 5 = .fenced (markEntry 1) false FireLog.fresh
      ∧ reply t = some (.done, [0#8, 0#8, 0#8, 8#8, 1#8, 0#8, 1#8, 0#8, 0#8, 0#8, 0#8]) := by decide +kernel

theorem witness_RecordReadsChangeNothing : plant.ReadyQuiet tag ∧ 0 ≤ 31 ∧ 31 ≤ 31 := by decide +kernel

theorem witness_RecordReadsChangeNothing_items :
    let names : List ReadItem :=
      [.condition, .attention, .members, .report, .slots, .axis 0, .axis 1, .axis 2, .axis 3, .silicon]
    names[0]? = some .condition ∧ names[9]? = some .silicon ∧ names[10]? = none := by decide +kernel

theorem witness_ReadEntryChecksTheEntry :
    let e := markEntry 1
    let s (ok : Bool) : State := plant.setSlot 511 (.live e ok Run.fresh)
    let taken := { s false with report := some ⟨.countOverrun, 2, 0, 0#16, 255⟩ }
    511 < 512 ∧ (s true).ReadyQuiet tag ∧ ((s true).slot 511).entry? = some e ∧ ((s true).slot 511).failsCheck = false
      ∧ (s false).ReadyQuiet tag ∧ (s false).slot 511 = .live e false Run.fresh ∧ (s false).report = none
      ∧ Run.fresh.activity = .idle ∧ (activeRun none).activity ≠ .idle
      ∧ (plant.setSlot 511 (.staged e false)).slot 511 = .staged e false
      ∧ taken.ReadyQuiet tag ∧ taken.slot 511 = .live e false Run.fresh
      ∧ taken.report = some ⟨.countOverrun, 2, 0, 0#16, 255⟩ ∧ plant.slot 0 = .free
      ∧ (plant.setSlot 0 .disabled).slot 0 = .disabled := by decide +kernel

theorem witness_ListAxisFollowsTheOrder :
    let s := plant.setSlot 511 (.live (markEntry 399) true Run.fresh)
    s.ReadyQuiet tag ∧ 65535 < 65536 ∧ 511 < 512 ∧ (s.axis 0).modulus ≤ 400 ∧ 399 < (s.axis 0).modulus
      ∧ (s.axis 0).state ≠ .off ∧ s.order 0 = [511] ∧ decide (keyLE (399, 511) (s.key 511)) = true
      ∧ (∀ k ∈ s.order 0, (s.slot k).failsCheck = false)
      ∧ ((plant.setSlot 511 (.live (markEntry 399) false Run.fresh)).slot 511).failsCheck = true
      ∧ (s.axis 1).state = .off ∧ 3599 < (s.axis 1).modulus := by
  decide +kernel

theorem witness_ReadNotifyReturnsAndRemoves :
    let s := ((plant.setSlot 2 (.unread (markEntry 80) true { FireLog.fresh with notifyPending := true })).setSlot 3
      (.fenced (markEntry 80) false { FireLog.fresh with notifyPending := true })).setSlot 511
      (.live (markEntry 80) true { Run.fresh with log := { FireLog.fresh with notifyPending := true } })
    s.ReadyQuiet tag ∧ 0 < 512 ∧ 511 < 512 ∧ s.notifySet = [2, 3, 511]
      ∧ (∀ h ∈ (s.notifySet.filter (fun h => decide (0 ≤ h))).take 8, (s.slot h).failsCheck = false)
      ∧ (s.setChannel 0 ⟨[.hand 511], []⟩).ReadyAlone tag
      ∧ (s.setChannel 0 ⟨[.hand 511], []⟩).channel 0 = ⟨[.hand 511], []⟩
      ∧ (s.setChannel 0 ⟨[.hand 511], []⟩).slot 511 =
        .live (markEntry 80) true { Run.fresh with log := { FireLog.fresh with notifyPending := true } } := by
  decide +kernel

theorem witness_EnteringSafeHoldsEveryOutput :
    plant.ReadyQuiet tag ∧ plant.condition ≠ .safe ∧ plant.enterSafe.ReadyQuiet tag ∧ plant.enterSafe.condition = .safe
      ∧ plant.phase ≠ .held ∧ plant.stopActive = false ∧ plant.enterSafe.stopActive = false ∧ 11 ≤ 11 ∧ 10 < 11 := by
  decide +kernel

theorem witness_ReleaseSafeLetsOutputsGo :
    let stopped := { plant.enterSafe with stopActive := true }
    stopped.ReadyQuiet tag ∧ stopped.condition = .safe ∧ stopped.stopActive = true
      ∧ plant.enterSafe.ReadyQuiet tag ∧ plant.enterSafe.condition = .safe ∧ plant.enterSafe.stopActive = false
      ∧ plant.ReadyQuiet tag ∧ plant.condition ≠ .safe := by decide +kernel

theorem witness_IntegrityRequestsAndDisturbances :
    let s (c : FaultCause) : State := { plant with report := some ⟨c, 3, 7, 9#16, 0⟩ }
    let live := plant.setSlot 511 (.live (markEntry 1) true Run.fresh)
    plant.ReadyQuiet tag ∧ plant.report = none
      ∧ (∀ c ∈ [FaultCause.entryCheck 4, .illegalTransition, .indexMismatch (-2), .countOverrun],
        (s c).ReadyQuiet tag ∧ (s c).report = some ⟨c, 3, 7, 9#16, 0⟩)
      ∧ live.ReadyQuiet tag ∧ live.slot 511 = .live (markEntry 1) true Run.fresh
      ∧ (live.slot 0).lifecycle ≠ .live := by decide +kernel

theorem witness_TableTestVisitsItsSet :
    let full := { plant with table := handles.map (fun h => (h, Slot.disabled)) }
    let running (h : Nat) (v : Slot) : State :=
      { plant.setSlot h v with
        port := { plant.port with state := .executing ⟨0x62#8, tag, .testing ⟨[h], 1, 0, 0⟩⟩ } }
    plant.ReadyQuiet tag ∧ handles.filter (fun h => plant.slot h == .free || (false && plant.slot h == .disabled)) ≠ []
      ∧ full.ReadyQuiet tag ∧ handles.filter (fun h => full.slot h == .free || (false && full.slot h == .disabled)) = []
      ∧ (running 0 .free).port.state = .executing ⟨0x62#8, tag, .testing ⟨[0], 1, 0, 0⟩⟩
      ∧ (running 0 .free).slot 0 = .free
      ∧ (running 511 .disabled).slot 511 = .disabled := by decide +kernel

theorem witness_TableTestVisitsItsSet_draining :
    let running (v : Slot) : State :=
      { plant.setSlot 511 v with
        port := { plant.port with state := .draining ⟨0x62#8, tag, .testing ⟨[511], 1, 0, 0⟩⟩ } }
    ∀ v ∈ [Slot.free, .disabled], (running v).slot 511 = v
      ∧ (running v).port.state = .draining ⟨0x62#8, tag, .testing ⟨511 :: [], 1, 0, 0⟩⟩ := by decide +kernel

/-- A part at work: a WINDOW is ACTIVE on OUT0, another is STAGED in the closed list of the RUNNING AX0, and a step of
AX0 is at the front of the queue. -/
def atWork : State :=
  { (((plant.setOutput 0 { (plant.output 0) with windowCount := 1 }).setSlot 14
      (.staged (windowEntry 10 20 false false) true)).setSlot 20
      (.live (windowEntry 90 150 true true) true ⟨.active none, true, ⟨1#16, some ⟨0#16, .forward⟩, true, 0⟩⟩)).setList 0
      ⟨[.place 14], true, 5#8⟩ with pending := [.step ⟨0, []⟩] }

theorem atWork_slot (h : Nat) : atWork.slot h =
    if 20 = h then .live (windowEntry 90 150 true true) true ⟨.active none, true, ⟨1#16, some ⟨0#16, .forward⟩, true, 0⟩⟩
    else if 14 = h then .staged (windowEntry 10 20 false false) true else .free := by
  have e : atWork.slot h = (((plant.setOutput 0 { (plant.output 0) with windowCount := 1 }).setSlot 14
      (.staged (windowEntry 10 20 false false) true)).setSlot 20
      (.live (windowEntry 90 150 true true) true
        ⟨.active none, true, ⟨1#16, some ⟨0#16, .forward⟩, true, 0⟩⟩)).slot h := rfl
  rw [e, State.setSlot_slot, State.setSlot_slot]
  rfl

theorem witness_invariants_step : ∃ t, step atWork = .next t := ⟨_, rfl⟩

theorem witness_StepsKeepTheTableCanonical : atWork.TableOk := by
  refine ⟨by decide +kernel, fun t h => ?_⟩
  exact absurd h (by show ¬ (none = some (Work.testing t)); simp)

theorem witness_StepsKeepEntriesSound : atWork.EntriesOk := by
  intro h
  rw [atWork_slot]
  split
  · simp [SlotOk, Slot.entry?, windowEntry, Entry.kind]
  · split <;> simp [SlotOk, Slot.entry?, windowEntry, Entry.kind]

theorem witness_StepsKeepTheOutputCounts : atWork.CountsOk :=
  ⟨witness_StepsKeepTheTableCanonical, by decide +kernel⟩

theorem witness_StepsKeepAxisRecordsSound : atWork.AxesOk := by
  unfold State.AxesOk Axis.Ok
  decide +kernel

theorem witness_StepsKeepUnreferencedAxesIdle : atWork.ActivityOk := by
  refine ⟨witness_StepsKeepTheTableCanonical, witness_StepsKeepAxisRecordsSound, fun h e ok r hs act => .inl ?_⟩
  rw [atWork_slot] at hs
  split at hs
  · cases hs; rfl
  · split at hs <;> cases hs

theorem witness_StepsKeepListShapes : atWork.ListShapesOk := by
  unfold State.ListShapesOk
  decide +kernel

theorem witness_StepsKeepListsInAgreement : atWork.ListsOk := by
  refine ⟨fun a i hi => ?_, by decide +kernel, by decide +kernel, fun h e ok hs => ?_⟩
  · have known : a = 0 ∧ i = .place 14 := by
      revert hi
      revert i
      revert a
      have all : ∀ a, (atWork.list a).items = if a = 0 then [.place 14] else [] := by decide +kernel
      intro a i hi
      rw [all] at hi
      split at hi <;> simp_all
    obtain ⟨rfl, rfl⟩ := known
    exact ⟨windowEntry 10 20 false false, true, by rw [atWork_slot]; rfl, rfl⟩
  · rw [atWork_slot] at hs
    split at hs
    · cases hs
    · split at hs
      · next at14 => cases hs; subst at14; decide +kernel
      · cases hs

theorem witness_StepsKeepEntriesOnTheirAxis : atWork.BindingsOk := by
  refine ⟨witness_StepsKeepTheTableCanonical, fun h => ?_, fun a k hk => ?_, fun k hk => ?_⟩
  · rw [atWork_slot]
    split
    · decide +kernel
    · split <;> decide +kernel
  · have quiet : ∀ a, (atWork.channel a).rest = [] := by decide +kernel
    rw [quiet] at hk
    cases hk
  · have quiet : atWork.port.state.claims = [] := by decide +kernel
    rw [quiet] at hk
    cases hk

theorem witness_StepsKeepEntriesOnTheirAxis_counts :
    (atWork.output 9).binding = none ∧ (atWork.output 1).drive = .toggle := by decide +kernel

theorem witness_StepsKeepTheSafeHolds : atWork.SafeOk := by
  unfold State.SafeOk
  decide +kernel

theorem witness_StepsKeepThePortRecord : atWork.PortOk := by
  refine ⟨rfl, fun r h => ?_, by decide +kernel, rfl⟩
  exact absurd h (by show ¬ r ∈ (none : Option Response); simp)

end Sys2Proof.Tests
end

section
/-! SUPPORT. Invariants, packaged once. `State.view` is what the invariants of the table, of its entries and of their
outputs read of a state; `Slot.Next` says what the part's work can make of a slot; and a predicate that keeps to both
(`Kept`) is kept by every piece of work of a channel. Its proofs name each operation of the model once. -/

namespace Sys2Proof.Machine

/-! ### What the invariants read -/

/-- The binding and the drive type of every output (R86, R87). -/
def State.wiring (s : State) (o : OutId) : Option AxisId × DriveType := ((s.output o).binding, (s.output o).drive)

/-- The slots, the wiring of the outputs, what is left of each channel's work, and the work of the executing request. -/
def State.view (s : State) :
    List (Nat × Slot) × (OutId → Option AxisId × DriveType) × (AxisId → List Task) × Option Work :=
  (s.table, s.wiring, fun a => (s.channel a).rest, s.port.state.work?)

theorem view_eq_iff (s t : State) : t.view = s.view ↔
    t.table = s.table ∧ t.wiring = s.wiring ∧ (∀ a, (t.channel a).rest = (s.channel a).rest)
      ∧ t.port.state.work? = s.port.state.work? := by
  simp only [State.view, Prod.mk.injEq, funext_iff]

/-- A write of an output record that keeps its binding and its drive type. -/
theorem setOutput_view {s : State} {o : OutId} {x : Output} (binding : x.binding = (s.output o).binding)
    (drive : x.drive = (s.output o).drive) : (s.setOutput o x).view = s.view := by
  refine (view_eq_iff s _).2 ⟨rfl, funext fun p => ?_, fun _ => rfl, rfl⟩
  simp only [State.wiring, State.setOutput_output]
  split
  · next same => rw [← same, binding, drive]
  · rfl

/-- A change of every output record that keeps bindings and drive types. -/
theorem mapOutputs_view {s : State} {f : Output → Output} (binding : ∀ x, (f x).binding = x.binding)
    (drive : ∀ x, (f x).drive = x.drive) : ({ s with outputs := s.outputs.map f } : State).view = s.view := by
  refine (view_eq_iff s _).2 ⟨rfl, funext fun p => ?_, fun _ => rfl, rfl⟩
  simp [State.wiring, State.output, binding, drive]

theorem countUp_wiring (x : Output) (k : Kind) :
    (x.countUp k).binding = x.binding ∧ (x.countUp k).drive = x.drive := by cases k <;> exact ⟨rfl, rfl⟩

theorem countDown_wiring (x : Output) (k : Kind) :
    (x.countDown k).binding = x.binding ∧ (x.countDown k).drive = x.drive := by cases k <;> exact ⟨rfl, rfl⟩

theorem capture_wiring (x : Output) : x.capture.binding = x.binding ∧ x.capture.drive = x.drive := by
  unfold Output.capture; split <;> exact ⟨rfl, rfl⟩

theorem fence_wiring (x : Output) (k : Kind) (wasActive : Bool) :
    (x.fence k wasActive).binding = x.binding ∧ (x.fence k wasActive).drive = x.drive := by
  unfold Output.fence
  cases wasActive with
  | false => exact capture_wiring x
  | true => exact ⟨(countDown_wiring _ k).1.trans (capture_wiring x).1,
      (countDown_wiring _ k).2.trans (capture_wiring x).2⟩

theorem setSafeHold_wiring (x : Output) : x.setSafeHold.binding = x.binding ∧ x.setSafeHold.drive = x.drive := by
  unfold Output.setSafeHold; split
  · exact ⟨rfl, rfl⟩
  · exact capture_wiring x

theorem release_wiring (p : Option AxisId → Bool) (x : Output) :
    (x.release p).binding = x.binding ∧ (x.release p).drive = x.drive := by
  unfold Output.release; split <;> exact ⟨rfl, rfl⟩

theorem setMode_wiring (x : Output) (m : Mode) : (x.setMode m).binding = x.binding ∧ (x.setMode m).drive = x.drive := by
  unfold Output.setMode; split
  · exact ⟨rfl, rfl⟩
  · split
    · exact capture_wiring x
    · exact ⟨rfl, rfl⟩

/-! ### What changes nothing of the view -/

@[simp] theorem setAxis_view (s : State) (a : AxisId) (x : Axis) : (s.setAxis a x).view = s.view := rfl
@[simp] theorem setList_view (s : State) (a : AxisId) (l : PendingList) : (s.setList a l).view = s.view := rfl
@[simp] theorem latch_view (s : State) (r : ReasonSet) : (s.latch r).view = s.view := rfl
@[simp] theorem endTransaction_view (s : State) : s.endTransaction.view = s.view := rfl

@[simp] theorem countUpFor_view (s : State) (e : Entry) : (s.countUpFor e).view = s.view := by
  unfold State.countUpFor
  cases e.output with
  | none => rfl
  | some o => exact setOutput_view (countUp_wiring _ _).1 (countUp_wiring _ _).2

@[simp] theorem countDownFor_view (s : State) (e : Entry) : (s.countDownFor e).view = s.view := by
  unfold State.countDownFor
  cases e.output with
  | none => rfl
  | some o => exact setOutput_view (countDown_wiring _ _).1 (countDown_wiring _ _).2

@[simp] theorem reportFault_view (s : State) (cause : FaultCause) (a : AxisId) (p : Nat) (rev : BitVec 16) :
    (s.reportFault cause a p rev).view = s.view := by
  unfold State.reportFault; split <;> rfl

@[simp] theorem endApplication_view (s : State) (a : AxisId) (announced : Bool) :
    (s.endApplication a announced).view = s.view := by
  unfold State.endApplication
  simp only
  split <;> rfl

@[simp] theorem enterSafe_view (s : State) : s.enterSafe.view = s.view := by
  unfold State.enterSafe; split
  · rfl
  · exact mapOutputs_view (s := { s with condition := .safe }) (fun x => (setSafeHold_wiring x).1)
      (fun x => (setSafeHold_wiring x).2)

@[simp] theorem finishRelease_view (s : State) : s.finishRelease.view = s.view := by
  unfold State.finishRelease; split <;> rfl

@[simp] theorem releaseWhere_view (s : State) (p : Option AxisId → Bool) : (s.releaseWhere p).view = s.view := by
  unfold State.releaseWhere; split
  · exact (finishRelease_view _).trans (mapOutputs_view (fun x => (release_wiring p x).1)
      (fun x => (release_wiring p x).2))
  · rfl

@[simp] theorem releaseAxis_view (s : State) (a : AxisId) : (s.releaseAxis a).view = s.view := by
  unfold State.releaseAxis; split <;> simp

@[simp] theorem beginRelease_view (s : State) : s.beginRelease.view = s.view :=
  (finishRelease_view _).trans (mapOutputs_view (s := { s with condition := .releasing })
    (fun x => (release_wiring _ x).1)
    (fun x => (release_wiring _ x).2))

@[simp] theorem rebound_view (s : State) (o : OutId) : (s.rebound o).view = s.view := by
  unfold State.rebound; split
  · exact (finishRelease_view _).trans (setOutput_view rfl rfl)
  · rfl

@[simp] theorem advance_view (s : State) (a : AxisId) : (s.advance a).view = s.view := by
  unfold State.advance; split <;> rfl

@[simp] theorem faultToSafeState_view (s : State) (a : AxisId) : (s.faultToSafeState a).view = s.view := by
  unfold State.faultToSafeState; split <;> simp

/-! ### What can become of a slot -/

/-- The activities an entry can take: ACTIVE with a timer for a PULSE, and without one for a WINDOW (R13, R80). -/
def Entry.Admits (e : Entry) (act : Activity) : Prop :=
  (act = .active none → e.kind = .window) ∧ ∀ d, act = .active (some d) → e.kind = .pulse

theorem admits_idle (e : Entry) : e.Admits .idle := ⟨nofun, nofun⟩

/-- What a write of the part's work makes of a slot (R2); a PLACE that stages an entry and a visit of a table test that
fails stand apart. -/
inductive Slot.Next : Slot → Slot → Prop where
  | same (v : Slot) : Next v v
  | freed (v : Slot) : Next v .free
  | spoiled (v : Slot) : Next v v.spoiled
  | restaged (e : Entry) (ok : Bool) (v : AlterValues) : Next (.staged e ok) (.staged (v.writeTo e) true)
  | placed (e : Entry) (ok : Bool) : Next (.staged e ok) (.live e true Run.fresh)
  | fenced {v : Slot} {e : Entry} {wasActive : Bool} {log : FireLog} (takes : v.toFence = some (e, wasActive, log)) :
      Next v (.fenced e false log)
  | fired (e : Entry) (ok : Bool) (r : Run) (revolution : BitVec 16) (dir : FireDir) {act : Activity}
      (admits : e.Admits act) : Next (.live e ok r) (.live e ok (r.fired e revolution dir act))
  | idled (e : Entry) (ok : Bool) (r : Run) : Next (.live e ok r) (.live e ok { r with activity := .idle })
  | unspent (e : Entry) (ok : Bool) (r : Run) : Next (.live e ok r) (.live e ok { r with spent := false })
  | altered (e : Entry) (ok : Bool) (r : Run) (v : AlterValues) :
      Next (.live e ok r) (.live (v.writeTo e) true { activity := .idle, spent := false, log := r.log })
  | logged (e : Entry) (ok : Bool) (r : Run) (log : FireLog) : Next (.live e ok r) (.live e ok { r with log := log })
  | relogged (e : Entry) (ok : Bool) (log log' : FireLog) : Next (.fenced e ok log) (.fenced e ok log')
  | missed (e : Entry) (ok : Bool) (log : FireLog) : Next (.unread e ok log) (.unread e ok log.miss)
  | retired {v : Slot} {e : Entry} {log : FireLog} (ok : Bool) (entry : v.entry? = some e) (kept : v.log? = some log) :
      Next v (retiredSlot e ok log)

/-- A FREE slot stays FREE: an entry comes into the table by a PLACE alone (R2). -/
theorem Slot.Next.of_free {v : Slot} (next : Slot.Next .free v) : v = .free := by
  cases next with
  | same => rfl
  | freed => rfl
  | spoiled => rfl
  | fenced takes => cases takes
  | retired ok entry kept => cases entry

/-! ### A predicate that the work of a channel keeps -/

/-- `P` keeps to the view of a state, holds on through every write of a slot, and through every change of what is left
of a channel's work to tasks that satisfy `T`. What is left in a channel satisfies `T`, and so do the claims of a
fence. -/
structure Kept (P : State → Prop) (T : Task → Prop) : Prop where
  view : ∀ {s t : State}, t.view = s.view → P s → P t
  slot : ∀ {s : State} {h : Nat} {v : Slot}, P s → (s.slot h).Next v → P (s.setSlot h v)
  rest : ∀ {s : State} {a : AxisId} {c : Channel}, P s → (∀ t ∈ c.rest, t ∈ (s.channel a).rest ∨ T t) →
    P (s.setChannel a c)
  ready : ∀ {s : State}, P s → P { s with port := { s.port with state := s.port.state.makeReady .done [] } }
  task : ∀ {s : State} {a : AxisId} {t : Task}, P s → t ∈ (s.channel a).rest → T t
  fence : ∀ {s : State} {h : Nat} {e : Entry} {wasActive : Bool} {log : FireLog} {o : OutId}, P s →
    (s.slot h).toFence = some (e, wasActive, log) → e.output = some o → T (.fenceOutput h o e.kind wasActive)
  plain : ∀ {t : Task}, (∀ o, t.fences o = false) → T t

section
variable {P : State → Prop} {T : Task → Prop} {s : State}

/-- Operations one after the other, each of which keeps `P` for the arguments that satisfy `Q`. -/
theorem foldl_keepsProp {α : Type} {Q : α → Prop} {f : State → α → State} (keeps : ∀ s x, P s → Q x → P (f s x))
    (xs : List α) (all : ∀ x ∈ xs, Q x) (holds : P s) : P (xs.foldl f s) := by
  induction xs generalizing s with
  | nil => exact holds
  | cons x xs ih => exact ih (fun y m => all y (by simp [m])) (keeps s x holds (all x (by simp)))

theorem Kept.foldl {α : Type} {f : State → α → State} (keeps : ∀ s x, P s → P (f s x)) (xs : List α) (holds : P s) :
    P (xs.foldl f s) :=
  foldl_keepsProp (Q := fun _ => True) (fun s x p _ => keeps s x p) xs (fun _ _ => trivial) holds

/-! ### Fires, fences and the work on one entry -/

theorem Kept.endActivity (k : Kept P T) (h : Nat) (holds : P s) : P (s.endActivity h) := by
  unfold State.endActivity; split
  · next e ok r live =>
    split
    · exact holds
    · exact k.view (countDownFor_view _ _) (k.slot holds (live ▸ .idled e ok r))
  · exact holds

theorem Kept.silenceAxis (k : Kept P T) (a : AxisId) (holds : P s) : P (s.silenceAxis a) :=
  k.view (setAxis_view _ _ _) (Kept.foldl (fun _ h => k.endActivity h) (s.liveOf a) holds)

theorem Kept.hand (k : Kept P T) (h : Nat) (holds : P s) : P (s.hand h) := by
  unfold State.hand; split
  · next e ok r live => exact k.slot holds (live ▸ .logged e ok r _)
  · next e ok l fenced => exact k.slot holds (fenced ▸ .relogged e ok l _)
  · next e ok l unread => exact k.slot holds (unread ▸ .missed e ok l)
  all_goals exact holds

theorem Kept.runClaim (k : Kept P T) (t : Task) (holds : P s) : P (s.runClaim t) := by
  cases t with
  | hand h => exact k.hand h holds
  | fenceOutput h o kind wasActive => exact k.view (setOutput_view (fence_wiring _ _ _).1 (fence_wiring _ _ _).2) holds
  | fenceReport h a p rev => exact k.view (reportFault_view s _ a p rev) holds
  | _ => exact holds

theorem Kept.defer (k : Kept P T) (a : AxisId) {t : Task} (fits : T t) (holds : P s) : P (s.defer a t) :=
  k.rest holds (fun u m => by
    rcases List.mem_append.1 m with m | m
    · exact .inl m
    · exact .inr (List.mem_singleton.1 m ▸ fits))

/-- A turn of a channel carries its task out or leaves it. -/
theorem Kept.takeVia (k : Kept P T) {run : State → Task → State} {t : Task} (a : AxisId) (fits : T t)
    (keeps : P s → P (run s t)) (holds : P s) : P (s.takeVia run a t) := by
  unfold State.takeVia; split
  · exact k.defer a fits holds
  · exact keeps holds

/-- Tasks of a channel, one after the other. -/
theorem Kept.takeAll (k : Kept P T) {run : State → Task → State} (a : AxisId) (keeps : ∀ s t, P s → T t → P (run s t))
    (ts : List Task) (fit : ∀ t ∈ ts, T t) (holds : P s) : P (ts.foldl (State.takeVia run a) s) :=
  foldl_keepsProp (f := State.takeVia run a) (fun s t p fits => k.takeVia a fits (fun p => keeps s t p fits) p) ts fit
    holds

theorem Kept.takeHanding (k : Kept P T) (h : Nat) (a : AxisId) (holds : P s) : P (State.takeHanding h s a) := by
  unfold State.takeHanding; split
  · next eq =>
    split
    · exact k.hand h (k.rest holds (fun t m => .inl (by rw [eq]; exact List.mem_cons_of_mem _ m)))
    · exact holds
  · exact holds

theorem Kept.takeHandings (k : Kept P T) (h : Nat) (holds : P s) : P (s.takeHandings h) :=
  Kept.foldl (fun _ a => k.takeHanding h a) axisIds holds

/-- A handing that finds its slot STAGED is discarded (R131). -/
theorem takeHandings_slot_staged {h : Nat} {e : Entry} {ok : Bool} (staged : s.slot h = .staged e ok) :
    (s.takeHandings h).slot h = .staged e ok :=
  foldl_keepsProp (P := fun t => t.slot h = .staged e ok) (Q := fun _ => True) (fun t a same _ => by
    unfold State.takeHanding; split
    · split
      · simp only [State.hand, State.setChannel_slot, same]
      · exact same
    · exact same) axisIds (fun _ _ => trivial) staged

theorem toFence_eq_some {v : Slot} {e : Entry} {wasActive : Bool} {log : FireLog}
    (takes : v.toFence = some (e, wasActive, log)) :
    (∃ ok, v = .staged e ok ∧ wasActive = false ∧ log = FireLog.fresh)
      ∨ ∃ ok r, v = .live e ok r ∧ wasActive = (r.activity != .idle) ∧ log = r.log := by
  cases v with
  | staged e' ok => cases takes; exact .inl ⟨ok, rfl, rfl, rfl⟩
  | live e' ok r => cases takes; exact .inr ⟨ok, r, rfl, rfl, rfl⟩
  | _ => cases takes

theorem Kept.fenceSlot (k : Kept P T) {h : Nat} {e : Entry} {wasActive : Bool} {log : FireLog}
    (takes : (s.slot h).toFence = some (e, wasActive, log)) (holds : P s) : P (s.fenceSlot h e log) := by
  unfold State.fenceSlot
  refine k.view (setList_view _ _ _) ?_
  rcases toFence_eq_some takes with ⟨ok, staged, -, -⟩ | ⟨ok, r, live, -, -⟩
  · simp only [staged, Slot.lifecycle, if_true]
    refine k.slot (k.takeHandings h holds) (.fenced (wasActive := wasActive) ?_)
    rw [takeHandings_slot_staged staged, ← staged]; exact takes
  · simp only [live, Slot.lifecycle, reduceCtorEq, if_false]
    exact k.slot holds (.fenced takes)

/-- Claim 1 of a fence keeps `P`, and the claims it leaves satisfy `T` (R160). -/
theorem Kept.beginFence (k : Kept P T) (h : Nat) (holds : P s) :
    P (s.beginFence h).1 ∧ ∀ t ∈ (s.beginFence h).2, T t := by
  unfold State.beginFence
  split
  · next e wasActive log takes =>
    refine ⟨k.fenceSlot takes holds, fun t m => ?_⟩
    simp only [Entry.fenceClaims, List.mem_append, Option.mem_toList, Option.map_eq_some_iff,
      List.mem_singleton] at m
    rcases m with ⟨o, output, rfl⟩ | rfl
    · exact k.fence holds takes output
    · exact k.plain (fun _ => rfl)
  · exact ⟨holds, nofun⟩

theorem Kept.fenceFrom (k : Kept P T) (a : AxisId) (h : Nat) (holds : P s) : P (s.fenceFrom a h) :=
  k.takeAll a (fun _ t p _ => k.runClaim t p) _ (k.beginFence h holds).2 (k.beginFence h holds).1

theorem Kept.checkRead (k : Kept P T) (h : Nat) (holds : P s) :
    P (s.checkRead h).1 ∧ ∀ t ∈ (s.checkRead h).2, T t := by
  unfold State.checkRead; split
  · exact k.beginFence h holds
  · exact ⟨holds, nofun⟩

theorem Kept.fire (k : Kept P T) (a : AxisId) (h : Nat) (dir : FireDir) {act : Activity}
    (admits : ∀ e ok r, s.slot h = .live e ok r → e.Admits act) (holds : P s) : P (s.fire a h dir act) := by
  unfold State.fire; split
  · next e ok r live =>
    have written : P (s.setSlot h (.live e ok (r.fired e (s.axis e.axis).revolution dir act))) :=
      k.slot holds (by rw [live]; exact .fired e ok r _ dir (admits e ok r live))
    simp only
    split
    · exact k.takeVia a (k.plain (fun _ => rfl)) (k.runClaim _) written
    · exact written
  · exact holds

theorem Kept.activate (k : Kept P T) (a : AxisId) (h : Nat) (e : Entry) (dir : FireDir) {timer : Option Nat}
    (admits : ∀ e ok r, s.slot h = .live e ok r → e.Admits (.active timer)) (holds : P s) :
    P (s.activate a h e dir timer) :=
  k.fire a h dir (fun e ok r live => admits e ok r ((countUpFor_slot s _ h).symm.trans live))
    (k.view (countUpFor_view s e) holds)

theorem judged_eq_some {a : AxisId} {h : Nat} {e : Entry} {ok : Bool} {r : Run}
    (judged : s.judged a h = some (e, ok, r)) : s.slot h = .live e ok r := by
  unfold State.judged at judged
  split at judged
  · next e' ok' r' live =>
    split at judged
    · cases judged; exact live
    · cases judged
  · cases judged

theorem Kept.judge (k : Kept P T) (a : AxisId) (h : Nat) {act : Entry → Run → State}
    (keeps : ∀ e ok r, s.slot h = .live e ok r → P (act e r)) (holds : P s) : P (s.judge a h act) := by
  unfold State.judge; split
  · exact holds
  · next e ok r judged =>
    split
    · exact keeps e ok r (judged_eq_some judged)
    · exact k.fenceFrom a h holds

/-- What an entry in a slot admits, the entry that the slot holds admits. -/
theorem admits_of_slot {h : Nat} {e : Entry} {ok : Bool} {r : Run} {act : Activity} (live : s.slot h = .live e ok r)
    (admits : e.Admits act) : ∀ e' ok' r', s.slot h = .live e' ok' r' → e'.Admits act := by
  intro e' ok' r' live'
  rw [live] at live'
  cases live'
  exact admits

theorem admits_window {e : Entry} {o : OutId} {off : Nat} (window : e.action = .window o off) :
    e.Admits (.active none) := ⟨fun _ => by simp only [Entry.kind, window], nofun⟩

theorem admits_pulse {e : Entry} {o : OutId} {d d' : Nat} {q : Qualifier} (pulse : e.action = .pulse o d q) :
    e.Admits (.active (some d')) := ⟨nofun, fun _ _ => by simp only [Entry.kind, pulse]⟩

theorem Kept.settleEntry (k : Kept P T) (a : AxisId) {h : Nat} {e : Entry} {ok : Bool} {r : Run}
    (live : s.slot h = .live e ok r) (holds : P s) : P (s.settleEntry a h e r) := by
  unfold State.settleEntry; split
  · next window =>
    split
    · exact k.activate a h e .none (admits_of_slot live (admits_window window)) holds
    · exact holds
  · exact holds

theorem Kept.invertOnce (k : Kept P T) (a : AxisId) (o : OutId) (holds : P s) : P (s.invertOnce a o) := by
  unfold State.invertOnce
  simp only
  split
  · exact holds
  · exact k.rest (k.view (setOutput_view rfl rfl) holds) (fun t m => .inl m)

theorem Kept.crossFire (k : Kept P T) (a : AxisId) {h : Nat} {e : Entry} {ok : Bool} {r : Run} (dir : FireDir)
    (live : s.slot h = .live e ok r) (holds : P s) : P (s.crossFire a h e r dir) := by
  unfold State.crossFire; split
  · exact holds
  · next pulse =>
    split
    · exact k.activate a h e dir (admits_of_slot live (admits_pulse pulse)) holds
    · exact k.fire a h dir (admits_of_slot live (admits_pulse pulse)) holds
  · exact k.fire a h dir (fun e _ _ _ => admits_idle e) (k.invertOnce a _ holds)
  · exact k.fire a h dir (fun e _ _ _ => admits_idle e) holds

/-- The tasks on single entries, and the claims that finish them. -/
theorem Kept.runEntry (k : Kept P T) (a : AxisId) (t : Task) (holds : P s) : P (s.runEntry a t) := by
  unfold State.runEntry; split
  · next h dir =>
    exact k.judge a h (fun e ok r live => by
      split
      · exact k.crossFire a dir live holds
      · exact holds) holds
  · next h point dir =>
    exact k.judge a h (fun e ok r live => by
      split
      · next window =>
        split
        · split
          · exact k.activate a h e dir (admits_of_slot live (admits_window window)) holds
          · exact holds
        · exact k.endActivity h holds
      · exact holds) holds
  · next h =>
    exact k.judge a h (fun e ok r live => by
      split
      · split
        · exact holds
        · exact k.endActivity h holds
      · exact holds) holds
  · next h => exact k.judge a h (fun e ok r live => k.settleEntry a live holds) holds
  · next h =>
    unfold State.jumpSettle; split
    · exact holds
    · next judged => exact k.settleEntry a (judged_eq_some judged) holds
  · exact k.runClaim _ holds

theorem Kept.takeEntries (k : Kept P T) (a : AxisId) (ts : List Task) (plain : ∀ t ∈ ts, ∀ o, t.fences o = false)
    (holds : P s) : P (s.takeEntries a ts) :=
  k.takeAll a (fun _ t p _ => k.runEntry a t p) ts (fun t m => k.plain (plain t m)) holds

/-- A list of tasks of one form that is no fence. -/
theorem plain_map {f : Nat → Task} (plain : ∀ h o, (f h).fences o = false) (hs : List Nat) :
    ∀ t ∈ hs.map f, ∀ o, t.fences o = false := by
  intro t m o
  obtain ⟨h, -, rfl⟩ := List.mem_map.1 m
  exact plain h o

theorem Kept.clearInverted (k : Kept P T) (a : AxisId) (holds : P s) :
    P (s.setChannel a { s.channel a with inverted := [] }) := k.rest holds (fun _ m => .inl m)

theorem Kept.settleAll (k : Kept P T) (a : AxisId) (hs : List Nat) (holds : P s) : P (s.settleAll a hs) :=
  k.takeEntries a _ (plain_map (fun _ _ => rfl) hs) holds

theorem Kept.evaluateJump (k : Kept P T) (a : AxisId) (holds : P s) : P (s.evaluateJump a) :=
  k.takeEntries a _ (fun t m => by
    rcases List.mem_append.1 m with m | m
    · exact plain_map (fun _ _ => rfl) _ t m
    · exact plain_map (fun _ _ => rfl) _ t m) holds

theorem Kept.jumpTo (k : Kept P T) (a : AxisId) (v : Nat) (holds : P s) : P (s.jumpTo a v) :=
  k.evaluateJump a (k.view (setAxis_view _ _ _) holds)

theorem Kept.clearSpent (k : Kept P T) (h : Nat) (holds : P s) : P (s.clearSpent h) := by
  unfold State.clearSpent; split
  · next e ok r live => exact k.slot holds (live ▸ .unspent e ok r)
  · exact holds

/-! ### Lists -/

theorem endActivity_slot_self_live {h : Nat} {e : Entry} {ok : Bool} {r : Run} (live : s.slot h = .live e ok r) :
    (s.endActivity h).slot h = .live e ok { r with activity := .idle } := by
  rw [endActivity_slot, if_pos rfl, live]; rfl

theorem Kept.applyItem (k : Kept P T) (i : Item) (holds : P s) : P (s.applyItem i) := by
  cases i with
  | place h =>
    simp only [State.applyItem, State.applyPlace]; split
    · next e ok staged => exact k.slot (k.takeHandings h holds) (takeHandings_slot_staged staged ▸ .placed e ok)
    · exact holds
  | alter h v =>
    simp only [State.applyItem, State.applyAlter]; split
    · next e ok r live =>
      exact k.slot (k.endActivity h holds)
        (endActivity_slot_self_live live ▸ .altered e ok { r with activity := .idle } v)
    · exact holds
  | retire h =>
    simp only [State.applyItem, State.applyRetire]; split
    · next e ok r live =>
      exact k.slot (k.endActivity h holds)
        (.retired ok (by rw [endActivity_slot_self_live live]; rfl) (by rw [endActivity_slot_self_live live]; rfl))
    · exact holds
  | setLead o lead =>
    have silenced : P ((s.liveOn o).foldl State.endActivity s) := Kept.foldl (fun _ h => k.endActivity h) _ holds
    simp only [State.applyItem, State.applyLead]
    generalize (s.liveOn o).foldl State.endActivity s = t at silenced
    exact k.view (setOutput_view rfl rfl) silenced

theorem Kept.applyNext (k : Kept P T) (a : AxisId) (holds : P s) : P (s.applyNext a) := by
  unfold State.applyNext; split
  · exact holds
  · next i more _ =>
    simp only
    split
    · refine k.view (setList_view _ _ _) ?_
      cases i.handle? with
      | none => exact holds
      | some h => exact k.fenceFrom a h holds
    · exact k.applyItem i (k.view (setList_view _ _ _) holds)

theorem Kept.applyClosed (k : Kept P T) (a : AxisId) (announced : Bool) (holds : P s) :
    P (s.applyClosed a announced) := by
  have items : P ((s.list a).items.foldl (fun t _ => if t.busy a then t else t.applyNext a) s) :=
    Kept.foldl (f := fun (t : State) (_ : Item) => if t.busy a then t else t.applyNext a) (fun t _ p => by
      split
      · exact p
      · exact k.applyNext a p) (s.list a).items holds
  unfold State.applyClosed; split
  · simp only
    split
    · exact k.defer a (k.plain (fun _ => rfl)) items
    · exact k.view (endApplication_view _ _ _) items
  · exact holds

/-! ### The pieces of work of a channel -/

theorem Kept.haltReached (k : Kept P T) (a : AxisId) (holds : P s) : P (s.haltReached a) := by
  unfold State.haltReached; split
  · exact k.ready holds
  · exact holds

theorem Kept.dropReference (k : Kept P T) (a : AxisId) (holds : P s) : P (s.dropReference a) := by
  unfold State.dropReference; split
  · exact k.silenceAxis a (k.view (setAxis_view _ _ _) holds)
  · exact holds

theorem Kept.runPart (k : Kept P T) (a : AxisId) (t : Task) (holds : P s) : P (s.runPart a t) := by
  unfold State.runPart; split
  · exact k.applyClosed a _ holds
  · exact k.view (releaseAxis_view s a) holds
  · exact k.view (advance_view s a) holds
  · exact k.takeEntries a _ (plain_map (fun _ _ => rfl) _) (k.clearInverted a holds)
  · exact k.takeEntries a _ (plain_map (fun _ _ => rfl) _) (k.clearInverted a holds)
  · exact k.settleAll a _ holds
  · exact k.silenceAxis a holds
  · exact k.haltReached a holds
  · exact k.runEntry a _ holds

theorem Kept.takeParts (k : Kept P T) (a : AxisId) (ts : List Task) (plain : ∀ t ∈ ts, ∀ o, t.fences o = false)
    (holds : P s) : P (s.takeParts a ts) :=
  k.takeAll a (fun _ t p _ => k.runPart a t p) ts (fun t m => k.plain (plain t m)) holds

theorem Kept.reachHalted (k : Kept P T) (a : AxisId) (holds : P s) : P (s.reachHalted a) :=
  k.takeParts a _ (by simp [Task.fences]) (k.dropReference a (k.view (setAxis_view _ _ _) holds))

theorem Kept.run (k : Kept P T) (a : AxisId) (t : Task) (holds : P s) : P (s.run a t) := by
  unfold State.run; split
  · unfold State.haltIfDone; split
    · exact k.reachHalted a holds
    · exact holds
  · exact k.runPart a _ holds

theorem Kept.take (k : Kept P T) (a : AxisId) (ts : List Task) (fit : ∀ t ∈ ts, T t) (holds : P s) : P (s.take a ts) :=
  k.takeAll a (fun _ t p _ => k.run a t p) ts fit holds

theorem Kept.resume (k : Kept P T) (a : AxisId) (holds : P s) : P (s.resume a) :=
  k.take a _ (fun _ m => k.task holds m) (k.rest holds nofun)

theorem Kept.stopping (k : Kept P T) (stops : List StopPoint) {work : State → State}
    (keeps : ∀ t, P t → P (work t)) (holds : P s) : P (s.stopping stops work) :=
  k.view (s := work { s with stops := stops }) rfl
    (keeps _ (k.view (s := s) (t := { s with stops := stops }) rfl holds))

theorem Kept.finish (k : Kept P T) (a : AxisId) (holds : P s) : P (s.finish a) :=
  k.stopping [] (fun _ => k.resume a) holds

theorem Kept.beginStep (k : Kept P T) (a : AxisId) (holds : P s) : P (s.beginStep a) := by
  refine k.take a _ (fun t m => k.plain (fun o => ?_)) ?_
  · simp only [Axis.stepTasks, List.mem_append, List.mem_ite_nil_right, List.mem_cons, List.not_mem_nil, or_false] at m
    rcases m with ((((⟨-, rfl | rfl⟩) | rfl) | ⟨-, rfl | rfl⟩) | ⟨-, rfl⟩) | rfl <;> rfl
  · split
    · exact Kept.foldl (fun _ h => k.clearSpent h) _ (k.view (setAxis_view _ _ _) holds)
    · exact holds

theorem Kept.endApplying (k : Kept P T) (a : AxisId) (holds : P s) : P (s.endApplying a) := by
  unfold State.endApplying; split
  · exact k.finish a holds
  · exact holds

theorem Kept.endAllApplying (k : Kept P T) (holds : P s) : P s.endAllApplying :=
  Kept.foldl (fun _ a => k.endApplying a) axisIds holds

/-! ### Axis faults -/

theorem Kept.faultClaim (k : Kept P T) (a : AxisId) (cause : FaultCause) (tracked : Nat) (later : Bool)
    (c : FaultClaim) (holds : P s) : P (State.faultClaim a cause tracked later s c) := by
  cases c with
  | silentEnd =>
    simp only [State.faultClaim]; split
    · exact k.view (setAxis_view _ _ _) holds
    · exact k.take a _ (by simpa using k.plain (fun _ => rfl)) holds
  | applyList => exact k.take a _ (by simpa using k.plain (fun _ => rfl)) holds
  | report => exact k.view (reportFault_view _ _ _ _ _) holds
  | attention => exact k.view (latch_view _ _) holds
  | safeState => exact k.view (faultToSafeState_view s a) holds

theorem Kept.axisFault (k : Kept P T) (a : AxisId) (cause : FaultCause) (order : FaultOrder) (holds : P s) :
    P (s.axisFault a cause order) := by
  unfold State.axisFault; split
  · exact k.stopping order.stops (fun t p => Kept.foldl (fun _ c => k.faultClaim a cause _ _ c) _
      (k.view (setAxis_view _ _ _) p)) (k.finish a holds)
  · exact holds

theorem Kept.addCounts (k : Kept P T) (a : AxisId) (n : Int) (order : FaultOrder) (holds : P s) :
    P (s.addCounts a n order) := by
  unfold State.addCounts
  simp only
  split
  · exact k.view (setAxis_view _ _ _) holds
  · exact k.axisFault a _ order holds

theorem Kept.addOneByOne (k : Kept P T) (a : AxisId) (unit : Int) (order : FaultOrder) (n : Nat) (holds : P s) :
    P (State.addOneByOne a unit order n s) := by
  induction n generalizing s with
  | zero => exact holds
  | succ n ih =>
    unfold State.addOneByOne; split
    · exact ih (k.addCounts a unit order holds)
    · exact holds

end

end Sys2Proof.Machine
end

section
/-! SUPPORT. Invariants over a whole step: the blocks of the requests, the port and the events of the part. A family of
predicates that each keep to the work of a channel (`Kept`), and that the acceptance, a staging, a table-test visit, a
CONFIG_OUTPUT and a reset lead from one to another (`StepKept`), is kept by every step. -/

namespace Sys2Proof.Machine

/-- What an invariant asks of the work of a request: its claims satisfy `T`, and the handles a running test has still to
visit satisfy `H`. -/
def Work.Fits (T : Task → Prop) (H : Nat → Prop) : Work → Prop
  | .claiming rest _ _ => ∀ t ∈ rest, T t
  | .testing run => ∀ h ∈ run.remaining, H h
  | _ => True

/-- A block's answer: a state that satisfies `P` and work that fits. -/
abbrev Answered (P : State → Prop) (T : Task → Prop) (H : Nat → Prop) (done : State × Work) : Prop :=
  P done.1 ∧ done.2.Fits T H

/-- The claims that the executing request has still to take are none: so it is while a block works, and the work of a
channel keeps it. -/
theorem claimsFree_kept : Kept (fun s => s.port.state.claims = []) (fun _ => True) where
  view same holds := by
    have work := ((view_eq_iff _ _).1 same).2.2.2
    simp only [PortState.claims, work] at holds ⊢
    exact holds
  slot holds _ := holds
  rest holds _ := holds
  ready {s} holds := by
    cases eq : s.port.state <;> simp [PortState.makeReady, PortState.claims, PortState.work?]
  task _ _ := trivial
  fence _ _ _ := trivial
  plain _ := trivial

/-! ### How the work of a request goes on -/

section
variable {P : State → Prop} {T : Task → Prop} {H : Nat → Prop} {s : State}

theorem Kept.retireFenced (k : Kept P T) (h : Nat) (holds : P s) : Answered P T H (s.retireFenced h) := by
  unfold State.retireFenced; split
  · next e ok log fenced => exact ⟨k.slot holds (.retired ok (by rw [fenced]; rfl) (by rw [fenced]; rfl)), trivial⟩
  · exact ⟨holds, trivial⟩

theorem Kept.settleClosed (k : Kept P T) (a : AxisId) (items : List Item) (h : Nat) (retired : Bool) (holds : P s) :
    Answered P T H (s.settleClosed a items h retired) := by
  refine ⟨k.takeParts a _ (by simp [Task.fences]) holds, ?_⟩
  simp only [State.settleClosed, State.repliesAfter]
  split <;> trivial

theorem Kept.proceed (k : Kept P T) (next : Next) (holds : P s) : Answered P T H (s.proceed next) := by
  cases next with
  | reply status payload => exact ⟨holds, trivial⟩
  | retire h => exact k.retireFenced h holds
  | closed a items h retired => exact k.settleClosed a items h retired holds

theorem Kept.takeClaims (k : Kept P T) (ts : List Task) (fit : ∀ t ∈ ts, T t) (holds : P s) :
    P (s.takeClaims ts).1 ∧ ∀ t ∈ (s.takeClaims ts).2, T t := by
  induction ts generalizing s with
  | nil => exact ⟨holds, nofun⟩
  | cons t ts ih =>
    unfold State.takeClaims; split
    · exact ⟨holds, fit⟩
    · exact ih (fun u m => fit u (by simp [m])) (k.runClaim t holds)

theorem Kept.goOn (k : Kept P T) (w : Work) (fits : w.Fits T H) (holds : P s) : Answered P T H (s.goOn w) := by
  cases w with
  | claiming rest next stops =>
    have taken := k.takeClaims rest fits holds
    simp only [State.goOn]
    rcases eq : s.takeClaims rest with ⟨t, _ | ⟨c, left⟩⟩
    · rw [eq] at taken; exact k.proceed next taken.1
    · rw [eq] at taken; exact taken
  | channel a next stops =>
    simp only [State.goOn]; split
    · exact ⟨holds, trivial⟩
    · exact k.proceed next holds
  | sampling asked rest taken stops =>
    simp only [State.goOn]
    rcases s.takeItemsOf taken rest with ⟨_ | ⟨i, left⟩, taken⟩ <;> exact ⟨holds, trivial⟩
  | _ => exact ⟨holds, fits⟩

theorem Kept.resumeWork (k : Kept P T) (w : Work) (fits : w.Fits T H) (holds : P s) :
    Answered P T H (s.resumeWork w) := by
  have restopped (t : State) (stops : List StopPoint) (p : P t) : P { t with stops := stops } := k.view (s := t) rfl p
  unfold State.resumeWork; split
  · next t rest next stops =>
    exact k.goOn _ (fun u m => fits u (List.mem_cons_of_mem t m)) (restopped _ _ (k.runClaim t holds))
  · exact k.goOn _ fits (restopped _ _ holds)
  · refine k.goOn _ trivial (restopped _ _ ?_)
    split
    · exact k.finish _ holds
    · exact holds
  · exact k.goOn _ trivial (restopped _ _ holds)
  · exact k.goOn _ trivial (restopped _ _ holds)
  · exact ⟨holds, fits⟩

theorem inOrder_fits {w : Work} (order : List ReadItem) (fits : w.Fits T H) : (w.inOrder order).Fits T H := by
  cases w <;> exact fits

/-! ### Axes -/

theorem Kept.served (k : Kept P T) (a : AxisId) (holds : P s) : Answered P T H (s.served a) :=
  ⟨k.takeParts a _ (by simp [Task.fences]) holds, trivial⟩

theorem Kept.reconfigure (k : Kept P T) (a : AxisId) (c : AxisConfig) (holds : P s) : P (s.reconfigure a c) := by
  unfold State.reconfigure
  simp only
  split
  · exact k.settleAll a _ (k.view (setAxis_view _ _ _) holds)
  · exact k.silenceAxis a (k.view (setAxis_view _ _ _) holds)
  · exact k.view (setAxis_view _ _ _) holds

theorem Kept.configAxis (k : Kept P T) (a : AxisId) (c : AxisConfig) (l : Lines) (holds : P s) :
    Answered P T H (s.configAxis a c l) := by
  unfold State.configAxis
  simp only
  split
  · exact ⟨holds, trivial⟩
  · exact ⟨holds, trivial⟩
  · exact ⟨holds, trivial⟩
  · exact ⟨k.view (setAxis_view _ _ _) holds, trivial⟩
  · split
    · exact k.served a (k.reconfigure a c (k.finish a holds))
    · split
      · exact ⟨holds, trivial⟩
      · exact ⟨k.view (setAxis_view _ _ _) holds, trivial⟩

theorem Kept.switchAxisOff (k : Kept P T) (a : AxisId) (holds : P s) : Answered P T H (s.switchAxisOff a) := by
  unfold State.switchAxisOff
  simp only
  split
  on_goal 5 => split
  on_goal 6 => exact ⟨k.view (setAxis_view _ _ _) holds, trivial⟩
  all_goals exact ⟨holds, trivial⟩

theorem Kept.runAxis (k : Kept P T) (a : AxisId) (holds : P s) : Answered P T H (s.runAxis a) := by
  unfold State.runAxis; split
  · exact ⟨k.view (setAxis_view _ _ _) holds, trivial⟩
  all_goals exact ⟨holds, trivial⟩

theorem Kept.takeSilentDue (k : Kept P T) (a : AxisId) (holds : P s) : P (s.takeSilentDue a) := by
  unfold State.takeSilentDue; split
  · exact k.silenceAxis a holds
  · exact holds

theorem Kept.haltFaulted (k : Kept P T) (a : AxisId) (holds : P s) : P (s.haltFaulted a) :=
  k.takeParts a _ (by simp [Task.fences])
    (k.settleAll a _ (k.view (setAxis_view _ _ _) (k.takeSilentDue a (k.finish a holds))))

theorem Kept.haltAxis (k : Kept P T) (a : AxisId) (holds : P s) : Answered P T H (s.haltAxis a) := by
  unfold State.haltAxis; split
  · have halting := k.view (setAxis_view (s.finish a) a { (s.finish a).axis a with state := .halting, remainder := 0 })
      (k.finish a holds)
    simp only
    split
    · exact k.served a (k.reachHalted a halting)
    · exact ⟨halting, trivial⟩
  · exact k.served a (k.haltFaulted a holds)
  all_goals exact ⟨holds, trivial⟩

theorem Kept.setPosition (k : Kept P T) (a : AxisId) (v : Nat) (holds : P s) :
    Answered P T H (s.setPosition a v) := by
  unfold State.setPosition; split
  on_goal 4 => split
  on_goal 4 => exact k.served a (k.jumpTo a v (k.finish a holds))
  on_goal 5 => split
  on_goal 5 => exact k.served a (k.jumpTo a v (k.finish a holds))
  all_goals exact ⟨holds, trivial⟩

theorem Kept.moveAxis (k : Kept P T) (a : AxisId) (n : Int) (holds : P s) : Answered P T H (s.moveAxis a n) := by
  unfold State.moveAxis
  simp only
  split
  · split
    · exact ⟨k.view (setAxis_view _ _ _) holds, trivial⟩
    · exact ⟨holds, trivial⟩
  · exact ⟨holds, trivial⟩

theorem Kept.setRate (k : Kept P T) (a : AxisId) (r : Int) (holds : P s) : Answered P T H (s.setRate a r) := by
  unfold State.setRate
  simp only
  split
  · exact ⟨k.view (setAxis_view _ _ _) holds, trivial⟩
  · exact ⟨holds, trivial⟩

/-! ### Edits -/

theorem Kept.closes (k : Kept P T) (a : AxisId) (h : Nat) (retired : Bool) (holds : P s) :
    Answered P T H (s.closes a h retired) := by
  unfold State.closes; split
  · exact ⟨k.takeParts a _ (by simp [Task.fences]) (k.finish a holds), trivial⟩
  · exact ⟨holds, trivial⟩

/-- The end of an edit: its items are taken, and the list is closed where asked. -/
theorem Kept.takeItems_closes (k : Kept P T) (a : AxisId) (items : List Item) (close : Bool) (h : Nat) (retired : Bool)
    (holds : P s) : Answered P T H ((s.takeItems a items close).closes a h retired) :=
  k.closes a h retired (k.view (setList_view _ _ _) holds)

theorem Kept.fencedByEdit (k : Kept P T) (h : Nat) (next : Next) (holds : P s) :
    Answered P T H (s.fencedByEdit h next) := k.beginFence h holds

theorem Kept.alterStaged (k : Kept P T) {h : Nat} {e : Entry} {ok : Bool} (v : AlterValues) (close : Bool)
    (staged : s.slot h = .staged e ok) (holds : P s) : Answered P T H (s.alterStaged h e v close) := by
  unfold State.alterStaged; split
  · exact ⟨holds, trivial⟩
  · split
    · exact ⟨holds, trivial⟩
    · split
      · exact ⟨holds, trivial⟩
      · exact k.takeItems_closes _ _ close 0 false (k.slot holds (staged ▸ .restaged e ok v))

theorem Kept.alterLive (k : Kept P T) (h : Nat) (e : Entry) (v : AlterValues) (close : Bool) (holds : P s) :
    Answered P T H (s.alterLive h e v close) := by
  unfold State.alterLive; split
  · exact ⟨holds, trivial⟩
  · extract_lets l merged
    split
    · exact ⟨holds, trivial⟩
    · split
      · exact ⟨holds, trivial⟩
      · split
        · exact k.takeItems_closes _ _ close 0 false holds
        · split
          · exact ⟨holds, trivial⟩
          · exact k.takeItems_closes _ _ close 0 false holds

theorem Kept.alter (k : Kept P T) (h : Nat) (v : AlterValues) (close : Bool) (holds : P s) :
    Answered P T H (s.alter h v close) := by
  unfold State.alter; split
  on_goal 5 => split
  on_goal 5 => next staged _ => exact k.alterStaged _ close staged holds
  on_goal 6 => split
  on_goal 6 => exact k.alterLive h _ _ close holds
  on_goal 5 => exact k.fencedByEdit h _ holds
  on_goal 5 => exact k.fencedByEdit h _ holds
  all_goals exact ⟨holds, trivial⟩

theorem Kept.retireStaged (k : Kept P T) (h : Nat) (e : Entry) (close : Bool) (holds : P s) :
    Answered P T H (s.retireStaged h e close) := by
  unfold State.retireStaged; split
  · exact ⟨holds, trivial⟩
  · exact k.takeItems_closes _ _ close h true (k.slot holds (.freed _))

theorem Kept.retireLive (k : Kept P T) (h : Nat) (e : Entry) (close : Bool) (holds : P s) :
    Answered P T H (s.retireLive h e close) := by
  unfold State.retireLive; split
  · exact ⟨holds, trivial⟩
  · simp only
    split
    · exact k.takeItems_closes _ _ close h true holds
    · split
      · exact ⟨holds, trivial⟩
      · exact k.takeItems_closes _ _ close h true holds

theorem Kept.retire (k : Kept P T) (h : Nat) (close : Bool) (holds : P s) : Answered P T H (s.retire h close) := by
  unfold State.retire; split
  on_goal 4 => exact k.retireFenced h holds
  on_goal 4 => split
  on_goal 4 => exact k.retireStaged h _ close holds
  on_goal 4 => exact k.fencedByEdit h _ holds
  on_goal 4 => split
  on_goal 4 => exact k.retireLive h _ close holds
  on_goal 4 => exact k.fencedByEdit h _ holds
  all_goals exact ⟨holds, trivial⟩

theorem Kept.setLeadOn (k : Kept P T) (a : AxisId) (o : OutId) (lead : Int) (close : Bool) (holds : P s) :
    Answered P T H (s.setLeadOn a o lead close) := by
  unfold State.setLeadOn
  simp only
  repeat' split
  on_goal 5 => exact k.takeItems_closes _ _ close 0 false holds
  on_goal 6 => exact k.takeItems_closes _ _ close 0 false holds
  all_goals exact ⟨holds, trivial⟩

theorem Kept.closeList (k : Kept P T) (a : AxisId) (holds : P s) : Answered P T H (s.closeList a) := by
  unfold State.closeList
  simp only
  repeat' split
  on_goal 4 => exact k.takeItems_closes _ _ true 0 false holds
  all_goals exact ⟨holds, trivial⟩

theorem Kept.discardItem (k : Kept P T) (i : Item) (holds : P s) : P (s.discardItem i) := by
  unfold State.discardItem; split
  · split
    · exact k.slot holds (.freed _)
    · exact holds
  all_goals exact holds

theorem Kept.discard (k : Kept P T) (a : AxisId) (holds : P s) : Answered P T H (s.discard a) := by
  unfold State.discard
  simp only
  split
  · exact ⟨holds, trivial⟩
  · split
    · refine ⟨?_, trivial⟩
      simp only
      split
      · exact k.view (setList_view _ _ _) holds
      · exact holds
    · exact ⟨k.view (setList_view _ _ _) (Kept.foldl (fun _ i => k.discardItem i) _ holds), trivial⟩

/-! ### The reads of the table, and the check values -/

theorem Kept.readEntry (k : Kept P T) (h : Nat) (holds : P s) : Answered P T H (s.readEntry h) := by
  unfold State.readEntry
  simp only
  split
  · exact ⟨holds, trivial⟩
  · exact k.checkRead h holds

/-- What a read of several entries has come to. -/
abbrev Reading.Fits (P : State → Prop) (T : Task → Prop) (acc : Reading) : Prop := P acc.state ∧ ∀ t ∈ acc.claims, T t

theorem Kept.reading (k : Kept P T) {acc : Reading} (h : Nat) (fits : acc.Fits P T) :
    P (acc.state.checkRead h).1 ∧ ∀ t ∈ acc.claims ++ (acc.state.checkRead h).2, T t := by
  have read := k.checkRead h fits.1
  exact ⟨read.1, fun t m => (List.mem_append.1 m).elim (fits.2 t) (read.2 t)⟩

theorem Kept.listAxis (k : Kept P T) (a : AxisId) (cursor : Nat × Nat) (holds : P s) :
    Answered P T H (s.listAxis a cursor) := by
  have listed : ∀ (hs : List Nat) (acc : Reading), acc.Fits P T → (hs.foldl Reading.list acc).Fits P T := by
    intro hs
    induction hs with
    | nil => exact fun _ fits => fits
    | cons h hs ih => exact fun acc fits => ih _ (k.reading h fits)
  unfold State.listAxis
  extract_lets selected acc
  have fits : acc.Fits P T := listed _ ⟨s, [], []⟩ ⟨holds, nofun⟩
  clear_value acc
  exact ⟨fits.1, fits.2⟩

theorem Kept.unmember (k : Kept P T) (h : Nat) (holds : P s) : P (s.unmember h) := by
  unfold State.unmember; split
  · next e ok r live => exact k.slot holds (live ▸ .logged e ok r _)
  · next e ok l fenced => exact k.slot holds (fenced ▸ .relogged e ok l _)
  · exact k.slot holds (.freed _)
  all_goals exact holds

theorem Kept.readNotify (k : Kept P T) (start : Nat) (holds : P s) : Answered P T H (s.readNotify start) := by
  have listed : ∀ (hs : List Nat) (acc : Reading), acc.Fits P T → (hs.foldl Reading.member acc).Fits P T := by
    intro hs
    induction hs with
    | nil => exact fun _ fits => fits
    | cons h hs ih => exact fun acc fits => ih _ ⟨k.unmember h (k.reading h fits).1, (k.reading h fits).2⟩
  unfold State.readNotify
  extract_lets selected acc next
  have fits : acc.Fits P T := listed _ ⟨s, [], []⟩ ⟨holds, nofun⟩
  clear_value acc
  exact ⟨fits.1, fits.2⟩

theorem Kept.spoilCheck (k : Kept P T) (h : Nat) (holds : P s) : Answered P T H (s.spoilCheck h) := by
  unfold State.spoilCheck; split
  · next e ok r live => exact ⟨k.slot holds (live ▸ .spoiled _), trivial⟩
  · exact ⟨holds, trivial⟩

end

/-! ### A family of predicates that a step keeps -/

/-- Each predicate of the family is kept by the work of a channel, and is about a port record through the work of its
request alone; a staging and a table-test visit keep it, and a CONFIG_OUTPUT and a reset lead to one of the family. -/
structure StepKept {ι : Type} (F : ι → State → Prop) (T : ι → Task → Prop) (H : Nat → Prop) : Prop where
  kept : ∀ i, Kept (F i) (T i)
  staged : ∀ {i : ι} {s : State} {h : Nat} {e : Entry}, F i s → h < Config.slotCount → s.outputFits e = true →
    (e.kind = .mark → e.notify = true) → F i (s.setSlot h (.staged e true))
  disabled : ∀ {i : ι} {s : State} {h : Nat}, F i s → H h → F i (s.setSlot h .disabled)
  handle : ∀ {h : Nat}, h < Config.slotCount → H h
  port : ∀ {i : ι} {s : State} {p : Port}, F i s →
    (∀ w, p.state.work? = some w → s.port.state.work? = some w ∨ w.Fits (T i) H) → F i { s with port := p }
  work : ∀ {i : ι} {s : State} {w : Work}, F i s → s.port.state.work? = some w → w.Fits (T i) H
  config : ∀ {i : ι} {s : State} {c : OutputConfig}, F i s → s.port.state.claims = [] → s.outputBlocked c = false →
    ∃ j, F j (s.writeConfig c)
  reset : ∃ i, F i State.reset

section
variable {ι : Type} {F : ι → State → Prop} {T : ι → Task → Prop} {H : Nat → Prop} {i : ι} {s : State}

/-- A block's answer is one of the family. -/
abbrev AnsweredIn (F : ι → State → Prop) (T : ι → Task → Prop) (H : Nat → Prop) (done : State × Work) : Prop :=
  ∃ j, Answered (F j) (T j) H done

/-- The block of a request leads from the family to the family. -/
abbrev BlockKeeps (F : ι → State → Prop) (T : ι → Task → Prop) (H : Nat → Prop) (block : Handler) : Prop :=
  ∀ i s args, F i s → s.port.state.claims = [] → AnsweredIn F T H (block args s)

/-! ### The blocks -/

theorem mem_handles {h : Nat} : h ∈ handles ↔ h < Config.slotCount := List.mem_range

theorem lowestFree_lt {h : Nat} (lowest : s.lowestFree = some h) : h < Config.slotCount := by
  unfold State.lowestFree at lowest
  exact mem_handles.1 (List.mem_of_find?_eq_some lowest)

theorem visitSet_lt {restore : Bool} {h : Nat} (visited : h ∈ s.visitSet restore) : h < Config.slotCount :=
  mem_handles.1 (List.mem_filter.1 visited).1

theorem StepKept.place (k : StepKept F T H) (e : Entry) (close : Bool) (notify : e.kind = .mark → e.notify = true)
    (holds : F i s) : Answered (F i) (T i) H (s.place e close) := by
  unfold State.place
  simp only
  repeat' split
  on_goal 8 =>
    next fits _ _ _ _ h lowest =>
    exact (k.kept i).takeItems_closes _ _ close h false (k.staged holds
      (lowestFree_lt lowest) (by simpa using fits) notify)
  all_goals exact ⟨holds, trivial⟩

/-- A decoded MARK has notify set (R12). -/
theorem decodePlace_notify {args : List Byte} {e : Entry} {close : Bool}
    (decoded : decodePlace args = some (e, close)) :
    e.kind = .mark → e.notify = true := by
  simp only [decodePlace, Option.bind_eq_bind, Option.bind_eq_some_iff, Option.pure_def, Option.some.injEq,
    Prod.mk.injEq] at decoded
  obtain ⟨a, -, kind, -, action, read, once, -, notify, -, close', -, rfl, -⟩ := decoded
  intro mark
  have : kind = .mark := by
    cases kind <;>
      simp only [decodeAction, Option.bind_eq_bind, Option.bind_eq_some_iff, Option.map_eq_some_iff, Option.pure_def,
        Option.some.injEq] at read
    · obtain ⟨o, -, rfl⟩ := read; exact mark
    · obtain ⟨o, -, d, -, q, -, rfl⟩ := read; exact mark
    · obtain ⟨o, -, q, -, rfl⟩ := read; exact mark
    · rfl
  simp [this]

theorem testWork_fits {T : Task → Prop} (s : State) {remaining : List Nat} (visited disabled restored : Nat)
    (below : ∀ h ∈ remaining, H h) : (s.testWork ⟨remaining, visited, disabled, restored⟩).Fits T H := by
  unfold State.testWork; split
  · trivial
  · exact below

theorem StepKept.configOutput (k : StepKept F T H) (c : OutputConfig) (holds : F i s)
    (free : s.port.state.claims = []) : AnsweredIn F T H (s.configOutput c) := by
  unfold State.configOutput; split
  · exact ⟨i, holds, trivial⟩
  · split
    · exact ⟨i, holds, trivial⟩
    · next unblocked =>
      split
      · exact ⟨i, holds, trivial⟩
      · obtain ⟨j, written⟩ := k.config holds free (by simpa using unblocked)
        exact ⟨j, written, trivial⟩

/-- Every block leads from the family to the family. -/
theorem StepKept.block (k : StepKept F T H) (code : Byte) (l : Lines) : BlockKeeps F T H (blockOf code l) := by
  have fixed {block : Handler} (keeps : ∀ i s args, F i s → Answered (F i) (T i) H (block args s)) :
      BlockKeeps F T H block := fun i s args holds _ => ⟨i, keeps i s args holds⟩
  unfold blockOf
  split
  · exact fixed (fun i s args holds => ⟨holds, trivial⟩)
  · exact fixed (fun i s args holds => ⟨holds, trivial⟩)
  · exact fixed (fun i s args holds => by unfold ackAttentionBlock; split <;> exact ⟨holds, trivial⟩)
  · exact fixed (fun i s args holds => by unfold setAttentionMaskBlock; split <;> exact ⟨holds, trivial⟩)
  · refine fixed (fun i s args holds => ?_)
    unfold configAxisBlock; split
    · exact ⟨holds, trivial⟩
    · exact (k.kept i).configAxis _ _ l holds
    · exact (k.kept i).switchAxisOff _ holds
  · refine fixed (fun i s args holds => ?_)
    unfold runAxisBlock; split
    · exact ⟨holds, trivial⟩
    · exact (k.kept i).runAxis _ holds
  · refine fixed (fun i s args holds => ?_)
    unfold haltAxisBlock; split
    · exact ⟨holds, trivial⟩
    · exact (k.kept i).haltAxis _ holds
  · refine fixed (fun i s args holds => ?_)
    unfold setPositionBlock; split
    · exact ⟨holds, trivial⟩
    · exact (k.kept i).setPosition _ _ holds
  · refine fixed (fun i s args holds => ?_)
    unfold moveAxisBlock; split
    · exact (k.kept i).moveAxis _ _ holds
    · exact ⟨holds, trivial⟩
  · refine fixed (fun i s args holds => ?_)
    unfold setRateBlock; split
    · exact (k.kept i).setRate _ _ holds
    · exact ⟨holds, trivial⟩
  · exact fixed (fun i s args holds => by unfold readAxisBlock; split <;> exact ⟨holds, trivial⟩)
  · intro i s args holds free
    unfold configOutputBlock; split
    · exact ⟨i, holds, trivial⟩
    · exact k.configOutput _ holds free
  · refine fixed (fun i s args holds => ?_)
    unfold setOutputModeBlock; split
    · exact ⟨(k.kept i).view (setOutput_view (setMode_wiring _ _).1 (setMode_wiring _ _).2) holds, trivial⟩
    · exact ⟨holds, trivial⟩
  · refine fixed (fun i s args holds => ?_)
    unfold clearOutputFaultBlock; split
    · exact ⟨holds, trivial⟩
    · split
      · exact ⟨holds, trivial⟩
      · exact ⟨(k.kept i).view (setOutput_view rfl rfl) holds, trivial⟩
  · exact fixed (fun i s args holds => by unfold readOutputBlock; split <;> exact ⟨holds, trivial⟩)
  · refine fixed (fun i s args holds => ?_)
    unfold placeBlock; split
    · exact ⟨holds, trivial⟩
    · next decoded => exact k.place _ _ (decodePlace_notify decoded) holds
  · refine fixed (fun i s args holds => ?_)
    unfold alterBlock; split
    · exact ⟨holds, trivial⟩
    · exact (k.kept i).alter _ _ _ holds
  · refine fixed (fun i s args holds => ?_)
    unfold retireBlock; split
    · exact ⟨holds, trivial⟩
    · exact (k.kept i).retire _ _ holds
  · refine fixed (fun i s args holds => ?_)
    unfold setLeadBlock; split
    · exact ⟨holds, trivial⟩
    · split
      · exact ⟨holds, trivial⟩
      · exact (k.kept i).setLeadOn _ _ _ _ holds
  · refine fixed (fun i s args holds => ?_)
    unfold closeListBlock; split
    · exact ⟨holds, trivial⟩
    · exact (k.kept i).closeList _ holds
  · refine fixed (fun i s args holds => ?_)
    unfold discardBlock; split
    · exact ⟨holds, trivial⟩
    · exact (k.kept i).discard _ holds
  · exact fixed (fun i s args holds => by unfold readPendingBlock; split <;> exact ⟨holds, trivial⟩)
  · refine fixed (fun i s args holds => ?_)
    unfold readEntryBlock; split
    · exact ⟨holds, trivial⟩
    · exact (k.kept i).readEntry _ holds
  · refine fixed (fun i s args holds => ?_)
    unfold listAxisBlock; split
    · split
      · exact ⟨holds, trivial⟩
      · split
        · exact ⟨holds, trivial⟩
        · exact (k.kept i).listAxis _ _ holds
    · exact ⟨holds, trivial⟩
  · refine fixed (fun i s args holds => ?_)
    unfold readNotifyBlock; split
    · exact ⟨holds, trivial⟩
    · exact (k.kept i).readNotify _ holds
  · exact fixed (fun i s args holds => ⟨(k.kept i).view (enterSafe_view s) holds, trivial⟩)
  · refine fixed (fun i s args holds => ?_)
    unfold releaseSafeBlock; split
    · split
      · exact ⟨holds, trivial⟩
      · exact ⟨(k.kept i).view (beginRelease_view s) holds, trivial⟩
    all_goals exact ⟨holds, trivial⟩
  · exact fixed (fun i s args holds => ⟨holds, trivial⟩)
  · exact fixed (fun i s args holds => ⟨(k.kept i).view (s := s) rfl holds, trivial⟩)
  · refine fixed (fun i s args holds => ?_)
    unfold tableTestBlock; split
    · exact ⟨holds, trivial⟩
    · next restore _ =>
      have below : ∀ h ∈ s.visitSet restore, H h := fun _ m => k.handle (visitSet_lt m)
      generalize s.visitSet restore = visited at below ⊢
      exact ⟨holds, testWork_fits s 0 0 0 below⟩
  · refine fixed (fun i s args holds => ?_)
    unfold spoilCheckBlock; split
    · exact ⟨holds, trivial⟩
    · exact (k.kept i).spoilCheck _ holds
  · exact fixed (fun i s args holds => ⟨holds, trivial⟩)

/-! ### The port -/

/-- The work of a block, as the port record takes it up (R180). -/
theorem StepKept.withOutcome (k : StepKept F T H) (s : State) {done : State × Work}
    (answered : Answered (F i) (T i) H done) : F i (s.withOutcome done) := by
  refine (k.kept i).view (s := { done.1 with port := { s.port with state := s.port.state.withWork done.2 } }) rfl
    (k.port answered.1 (fun w is => .inr ?_))
  have same : done.2 = w := by
    cases eq : s.port.state <;>
      simp only [eq, PortState.withWork, PortState.work?, Option.some.injEq, reduceCtorEq] at is
    · exact is
    · exact is
  exact same ▸ answered.2

theorem StepKept.runBlock (k : StepKept F T H) (code : Byte) {block : Handler} (keeps : BlockKeeps F T H block)
    (args : List Byte) (pace : Pace) (holds : F i s) (free : s.port.state.claims = []) :
    ∃ j, F j (s.runBlock code block args pace) := by
  have begun : F i (if passesApplications code then s else s.endAllApplying)
      ∧ (if passesApplications code then s else s.endAllApplying).port.state.claims = [] := by
    split
    · exact ⟨holds, free⟩
    · exact ⟨(k.kept i).endAllApplying holds, claimsFree_kept.endAllApplying free⟩
  unfold State.runBlock
  generalize (if passesApplications code then s else s.endAllApplying) = t at begun
  obtain ⟨j, answered, fits⟩ := keeps i { t with stops := pace.stops } args
    ((k.kept i).view (s := t) rfl begun.1) begun.2
  exact ⟨j, k.withOutcome s ((k.kept j).goOn _ (inOrder_fits pace.order fits) answered)⟩

theorem StepKept.accept (k : StepKept F T H) (code tag : Byte) {w : Work} (fits : w.Fits (T i) H) (holds : F i s) :
    F i (s.accept code tag w) := k.port holds (fun w' is => .inr (by cases is; exact fits))

theorem StepKept.carryOut (k : StepKept F T H) (code tag : Byte) (args : List Byte) (pace : Pace) {block : Handler}
    (keeps : BlockKeeps F T H block) (l : Lines) (holds : F i s) :
    ∃ j, F j (s.carryOut code tag args pace block l) := by
  unfold State.carryOut; split
  · exact ⟨i, k.accept code tag trivial holds⟩
  · split
    · simp only
      split
      · exact ⟨i, k.accept code tag trivial holds⟩
      · exact k.runBlock code keeps args pace (k.accept code tag trivial holds) rfl
    · exact ⟨i, k.accept code tag trivial holds⟩

/-- A request frame, whatever the port makes of it (R177, R178). -/
theorem StepKept.request (k : StepKept F T H) (code : Byte) (rest : List Byte) (pace : Pace) {block : Handler}
    (keeps : BlockKeeps F T H block) (l : Lines) (holds : F i s) : ∃ j, F j (s.request code rest pace block l) := by
  have ended : F i s.endTransaction := (k.kept i).view (endTransaction_view s) holds
  have rejected (t : State) (same : t.view = s.endTransaction.view) : ∃ j, F j t := ⟨i, (k.kept i).view same ended⟩
  unfold State.request; split
  · simp only
    split
    · exact rejected _ rfl
    · exact rejected _ rfl
    · split
      · exact rejected _ rfl
      · split
        · exact ⟨i, ended⟩
        · exact k.carryOut code _ _ pace keeps l ended
  · exact ⟨i, ended⟩

theorem afterBreak_work (p : PortState) : p.afterBreak.work? = p.work? := by cases p <;> rfl

theorem StepKept.takeBreak (k : StepKept F T H) (holds : F i s) : F i s.takeBreak := by
  unfold State.takeBreak; split
  · exact k.port ((k.kept i).view (endTransaction_view s) holds)
      (fun w is => .inl ((afterBreak_work s.port.state).symm.trans is))
  · exact (k.kept i).view (endTransaction_view s) holds

theorem work?_of_request? {p : PortState} {r : Executing} (executes : p.request? = some r) : p.work? = some r.work := by
  cases p <;> simp_all [PortState.request?, PortState.work?]

theorem claims_eq_nil {p : PortState} {w : Work} (work : p.work? = some w)
    (other : ∀ rest next stops, w ≠ .claiming rest next stops) : p.claims = [] := by
  unfold PortState.claims; split
  · next rest next stops eq => rw [work] at eq; exact absurd (Option.some.inj eq) (other rest next stops)
  · rfl

/-- The request that executes goes on (R180). -/
theorem StepKept.takeWork (k : StepKept F T H) (holds : F i s) : ∃ j, F j s.takeWork := by
  unfold State.takeWork; split
  · next code tag args l pace executes =>
    exact k.runBlock code (k.block code l) args pace holds (claims_eq_nil (work?_of_request? executes) nofun)
  · next executes =>
    exact ⟨i, k.withOutcome s ((k.kept i).resumeWork _ (k.work holds (work?_of_request? executes)) holds)⟩
  · exact ⟨i, holds⟩

theorem StepKept.background (k : StepKept F T H) (holds : F i s) : ∃ j, F j s.background := by
  unfold State.background; split
  · exact ⟨i, (k.kept i).finish _ holds⟩
  · exact k.takeWork holds

theorem completionEffect_view (s : State) (effect : CompletionEffect) : (s.completionEffect effect).view = s.view := by
  cases effect <;> rfl

theorem StepKept.complete (k : StepKept F T H) (holds : F i s) : F i s.complete := by
  unfold State.complete; split
  · exact (k.kept i).view ((completionEffect_view _ _).trans (latch_view _ _)) (k.port holds nofun)
  · exact (k.kept i).view (completionEffect_view _ _) (k.port holds nofun)
  · exact holds

/-! ### The commands -/

/-- A command answers a next state of the family. -/
abbrev LeadsIn (F : ι → State → Prop) (answer : Host.Outcome State Fault Refusal) : Prop :=
  ∃ j t, answer = .next t ∧ F j t

theorem leads_of_exists {t : State} (kept : ∃ j, F j t) : LeadsIn F (.next t) :=
  let ⟨j, holds⟩ := kept; ⟨j, t, rfl, holds⟩

theorem leads_of_kept {t : State} (holds : F i t) : LeadsIn F (.next t) := ⟨i, t, rfl, holds⟩

theorem StepKept.unknownRequest (k : StepKept F T H) (code : Byte) (rest : List Byte) (holds : F i s) :
    LeadsIn F (execUnknownRequest code rest s) := by
  have ended : F i s.endTransaction := (k.kept i).view (endTransaction_view s) holds
  unfold execUnknownRequest; split
  · exact leads_of_kept ended
  · exact leads_of_kept ended
  · exact leads_of_kept (k.takeBreak holds)
  · exact leads_of_exists (k.request _ _ _ (k.block _ _) _ holds)

theorem StepKept.visit (k : StepKept F T H) {run : TestRun} {h : Nat} {rest : List Nat} (passes : Bool)
    (work : s.port.state.work? = some (.testing run)) (next : run.remaining = h :: rest) (holds : F i s) :
    F i (s.visit run h rest passes) := by
  have below : ∀ h' ∈ h :: rest, H h' := next ▸ k.work holds work
  have moved : F i (s.setSlot h ((s.slot h).visited passes)) := by
    unfold Slot.visited; split
    · cases passes with
      | true => exact (k.kept i).slot holds (.freed _)
      | false => exact k.disabled holds (below h (by simp))
    · exact (k.kept i).slot holds (.same _)
  refine k.port moved (fun w is => .inr ?_)
  have same : (s.setSlot h ((s.slot h).visited passes)).testWork (run.count (s.slot h) rest passes) = w := by
    cases eq : s.port.state <;>
      simp only [State.setSlot_port, eq, PortState.withWork, PortState.work?, Option.some.injEq, reduceCtorEq] at is
    · exact is
    · exact is
  exact same ▸ testWork_fits _ _ _ _ (fun h' m => below h' (List.mem_cons_of_mem h m))

theorem StepKept.tableTestVisit (k : StepKept F T H) (passes : Bool) (holds : F i s) :
    LeadsIn F (execTableTestVisit passes s) := by
  unfold execTableTestVisit; split
  · next work => exact leads_of_kept (k.visit passes work rfl holds)
  · exact leads_of_kept holds

theorem StepKept.linesChange (k : StepKept F T H) (a : AxisId) (l : Lines) (order : FaultOrder) (holds : F i s) :
    F i (s.linesChange a l order) := by
  have moved : F i (s.setLines a l) := (k.kept i).view (setAxis_view _ _ _) holds
  unfold State.linesChange
  simp only
  split
  · split
    · exact moved
    · exact (k.kept i).addCounts a _ order moved
    · exact (k.kept i).axisFault a _ order moved
  · exact moved

theorem StepKept.checkIndex (k : StepKept F T H) (a : AxisId) (index : Nat) (order : FaultOrder) (holds : F i s) :
    F i (s.checkIndex a index order) := by
  unfold State.checkIndex
  simp only
  split
  · exact holds
  · split
    · split
      · exact (k.kept i).addCounts a _ order ((k.kept i).view (setAxis_view _ _ _) holds)
      · exact (k.kept i).axisFault a _ order holds
    · exact (k.kept i).axisFault a _ order holds

theorem StepKept.indexEvent (k : StepKept F T H) (a : AxisId) (samples : Nat) (order : FaultOrder) (holds : F i s) :
    LeadsIn F (execIndexEvent a samples order s) := by
  have kept := k.kept i
  unfold execIndexEvent
  simp only
  split
  · split
    · refine leads_of_kept (kept.stopping order.stops (fun t p => ?_)
        (kept.view (setAxis_view _ _ _) (kept.finish a holds)))
      unfold State.indexEvent; split
      · exact k.checkIndex a _ order p
      · exact kept.evaluateJump a (kept.view ((latch_view _ _).trans (setAxis_view _ _ _)) p)
    · exact leads_of_kept (kept.view (setAxis_view _ _ _) (kept.endApplying a holds))
  · exact leads_of_kept holds

theorem StepKept.rateTurn (k : StepKept F T H) (turn : AxisId × FaultOrder) (holds : F i s) :
    F i (s.rateTurn turn) := by
  have ended := (k.kept i).endApplying turn.1 holds
  unfold State.rateTurn
  simp only
  split
  · exact (k.kept i).addOneByOne turn.1 _ turn.2 _ ((k.kept i).view (setAxis_view _ _ _) ended)
  · exact ended

theorem StepKept.stepOf (k : StepKept F T H) (turn : ChannelTurn) (holds : F i s) : LeadsIn F (execStep turn s) := by
  unfold execStep
  simp only
  split
  · exact leads_of_kept ((k.kept i).stopping turn.stops (fun t p => (k.kept i).resume _ p) holds)
  · split
    · exact leads_of_kept ((k.kept i).stopping turn.stops (fun t p => (k.kept i).beginStep _ p) holds)
    · exact leads_of_kept holds

theorem StepKept.pulseExpiry (k : StepKept F T H) (h : Fin 512) (elapsed : Nat) (holds : F i s) :
    LeadsIn F (execPulseExpiry h elapsed s) := by
  unfold execPulseExpiry; split
  · split
    · exact leads_of_kept ((k.kept i).endActivity h holds)
    · exact leads_of_kept holds
  · exact leads_of_kept holds

theorem StepKept.outgoingFrame (k : StepKept F T H) (holds : F i s) : LeadsIn F (execOutgoingFrame s) := by
  unfold execOutgoingFrame; split
  · exact leads_of_kept ((k.kept i).view (s := s) rfl holds)
  all_goals exact leads_of_kept ((k.kept i).view (endTransaction_view s) holds)

theorem StepKept.stopEvent (k : StepKept F T H) (samples : Nat) (holds : F i s) :
    LeadsIn F (execStopEvent samples s) := by
  unfold execStopEvent; split
  · exact leads_of_kept ((k.kept i).view (enterSafe_view _) ((k.kept i).view (s := s) rfl holds))
  · exact leads_of_kept holds

/-- Every command leads from the family to the family. -/
theorem StepKept.exec (k : StepKept F T H) (c : Instr) (holds : F i s) : LeadsIn F (exec c s) := by
  have kept := k.kept i
  have same {t : State} (view : t.view = s.view) : LeadsIn F (.next t) := leads_of_kept (kept.view view holds)
  have request (code : Byte) (rest : List Byte) (pace : Pace) (l : Lines) :
      LeadsIn F (.next (s.request code rest pace (blockOf code l) l)) :=
    leads_of_exists (k.request code rest pace (k.block code l) l holds)
  cases c with
  | deviceReset =>
    obtain ⟨j, reset⟩ := k.reset
    exact leads_of_kept ((k.kept j).view (s := State.reset) rfl reset)
  | outgoingFrame => exact k.outgoingFrame holds
  | poll rest => exact same rfl
  | portBreak rest => exact leads_of_kept (k.takeBreak holds)
  | unknownRequest code rest => exact k.unknownRequest code rest holds
  | requestCompletion =>
    obtain ⟨j, taken⟩ := k.takeWork holds
    exact leads_of_kept (k.complete taken)
  | nop sent => exact request 0x01#8 sent.rest sent.pace _
  | readStatus sent => exact request 0x02#8 sent.rest sent.pace _
  | ackAttention sent => exact request 0x03#8 sent.rest sent.pace _
  | setAttentionMask sent => exact request 0x04#8 sent.rest sent.pace _
  | configAxis sent lines => exact request 0x10#8 sent.rest sent.pace lines
  | runAxis sent => exact request 0x11#8 sent.rest sent.pace _
  | haltAxis sent => exact request 0x12#8 sent.rest sent.pace _
  | setPosition sent => exact request 0x13#8 sent.rest sent.pace _
  | moveAxis sent => exact request 0x14#8 sent.rest sent.pace _
  | setRate sent => exact request 0x15#8 sent.rest sent.pace _
  | readAxis sent => exact request 0x16#8 sent.rest sent.pace _
  | configOutput sent => exact request 0x20#8 sent.rest sent.pace _
  | setOutputMode sent => exact request 0x21#8 sent.rest sent.pace _
  | clearOutputFault sent => exact request 0x22#8 sent.rest sent.pace _
  | readOutput sent => exact request 0x23#8 sent.rest sent.pace _
  | place sent => exact request 0x30#8 sent.rest sent.pace _
  | alter sent => exact request 0x31#8 sent.rest sent.pace _
  | retire sent => exact request 0x32#8 sent.rest sent.pace _
  | setLead sent => exact request 0x33#8 sent.rest sent.pace _
  | closeList sent => exact request 0x34#8 sent.rest sent.pace _
  | discard sent => exact request 0x35#8 sent.rest sent.pace _
  | readPending sent => exact request 0x36#8 sent.rest sent.pace _
  | readEntry sent => exact request 0x38#8 sent.rest sent.pace _
  | listAxis sent => exact request 0x39#8 sent.rest sent.pace _
  | readNotify sent => exact request 0x40#8 sent.rest sent.pace _
  | enterSafe sent => exact request 0x50#8 sent.rest sent.pace _
  | releaseSafe sent => exact request 0x51#8 sent.rest sent.pace _
  | readFaultReport sent => exact request 0x60#8 sent.rest sent.pace _
  | clearFaultReport sent => exact request 0x61#8 sent.rest sent.pace _
  | tableTest sent => exact request 0x62#8 sent.rest sent.pace _
  | tableTestVisit passes => exact k.tableTestVisit passes holds
  | spoilCheck sent => exact request 0x63#8 sent.rest sent.pace _
  | encoderCount a b c samples order =>
    show LeadsIn F (execEncoderCount a b c samples order s)
    unfold execEncoderCount; split
    · exact leads_of_kept (k.linesChange a _ order (kept.endApplying a holds))
    · exact leads_of_kept holds
  | indexEvent a samples order => exact k.indexEvent a samples order holds
  | rateInterval turns => exact leads_of_kept (Kept.foldl (fun _ turn => k.rateTurn turn) (rateTurns turns) holds)
  | axisSilentEnd a =>
    show LeadsIn F (execAxisSilentEnd a s)
    unfold execAxisSilentEnd; split
    · exact leads_of_kept (kept.silenceAxis a (kept.finish a holds))
    · exact leads_of_kept holds
  | step turn => exact k.stepOf turn holds
  | pulseExpiry h elapsed => exact k.pulseExpiry h elapsed holds
  | stopEvent samples => exact k.stopEvent samples holds
  | stopInactive samples =>
    show LeadsIn F (execStopInactive samples s)
    unfold execStopInactive; split <;> exact same rfl
  | memoryDisturbance h => exact leads_of_kept (kept.slot holds (.spoiled _))
  | recognizedLineChange a l samples order =>
    show LeadsIn F (execRecognizedLineChange a l samples order s)
    unfold execRecognizedLineChange; split
    · exact leads_of_kept (k.linesChange a l order (kept.endApplying a holds))
    · exact leads_of_kept holds
  | endOfReset l stop =>
    show LeadsIn F (execEndOfReset l stop s)
    unfold execEndOfReset; split <;> exact same rfl
  | portServiceDelayEnd =>
    show LeadsIn F (execPortServiceDelayEnd s)
    unfold execPortServiceDelayEnd; split <;> exact same rfl

/-- Every step keeps the family: the package of an invariant (R57, R180). -/
theorem StepKept.step (k : StepKept F T H) {t : State} (holds : F i s) (taken : step s = .next t) : ∃ j, F j t := by
  have leads : LeadsIn F (Machine.step s) := by
    unfold Machine.step; split
    · exact leads_of_exists (k.background holds)
    · exact k.exec _ ((k.kept i).view (s := s) rfl holds)
  obtain ⟨j, u, eq, kept⟩ := leads
  rw [taken] at eq
  cases eq
  exact ⟨j, kept⟩

end

end Sys2Proof.Machine
end

section
/-! SUPPORT. The invariants of the slot table, of its entries and of the outputs that entries target, each a case of
`StepKept`, and the obligations that follow. -/

namespace Sys2Proof.Machine

/-! ### CONFIG_OUTPUT -/

theorem Kept.takeFences {P : State → Prop} {T : Task → Prop} (k : Kept P T) {s : State} (o : OutId) (holds : P s) :
    P (s.takeFences o) :=
  Kept.foldl (f := State.takeFence o) (fun _ _ p => Kept.foldl (fun _ t => k.runClaim t) _
    (k.rest p (fun _ m => .inl (List.mem_filter.1 m).1))) axisIds holds

/-- A CONFIG_OUTPUT is the claims of fences that wait for the output, and the write of its record (R99). -/
theorem writeConfig_of_setOutput {P : State → Prop} {T : Task → Prop} (k : Kept P T) {s : State} {c : OutputConfig}
    (writes : ∀ t x, P t → P (t.setOutput c.output x)) (holds : P s) : P (s.writeConfig c) := by
  have taken : P (if (s.output c.output).binding = c.binding ∧ (s.output c.output).drive = c.drive then s
      else s.takeFences c.output) := by
    split
    · exact holds
    · exact k.takeFences c.output holds
  unfold State.writeConfig
  simp only
  split
  · exact writes _ _ taken
  · exact k.view (rebound_view _ _) (writes _ _ taken)

/-! ### The state in reset -/

theorem reset_channel (a : AxisId) : State.reset.channel a = Channel.quiet := by simp [State.channel, State.reset]
theorem reset_axis (a : AxisId) : State.reset.axis a = Axis.reset := by simp [State.axis, State.reset]
theorem reset_list (a : AxisId) : State.reset.list a = PendingList.reset := by simp [State.list, State.reset]
theorem reset_output (o : OutId) : State.reset.output o = Output.reset := by simp [State.output, State.reset]

/-! ### The slot table -/

theorem makeReady_work {p : PortState} {status : Status} {payload : List Byte} {w : Work}
    (work : (p.makeReady status payload).work? = some w) : w = .ready status payload .nothing := by
  cases p <;> simp_all [PortState.makeReady, PortState.work?]

/-- A write of a slot that was in use, or of FREE, keeps the canonical form (R1). -/
theorem tableOk_setSlot {s : State} {h : Nat} {v : Slot} (holds : s.TableOk)
    (below : v ≠ .free → h < Config.slotCount) : (s.setSlot h v).TableOk := by
  refine ⟨?_, holds.2⟩
  by_cases free : v = .free
  · exact free ▸ Table.set_free_wf _ _ holds.1
  · exact Table.set_wf _ _ _ (below free) holds.1

theorem tableOk_kept : Kept State.TableOk (fun _ => True) where
  view same holds := by
    obtain ⟨table, -, -, work⟩ := (view_eq_iff _ _).1 same
    unfold State.TableOk
    rw [table, work]
    exact holds
  slot {s h v} holds next := tableOk_setSlot holds (fun used =>
    Table.wf_lt_of_get_ne holds.1 (fun free => used (Slot.Next.of_free (show Slot.Next .free v from free ▸ next))))
  rest holds _ := holds
  ready holds := ⟨holds.1, fun _ work => nomatch makeReady_work work⟩
  task _ _ := trivial
  fence _ _ _ := trivial
  plain _ := trivial

theorem tableOk_stepKept : StepKept (fun _ : Unit => State.TableOk) (fun _ _ => True) (· < Config.slotCount) where
  kept _ := tableOk_kept
  staged holds below _ _ := tableOk_setSlot holds (fun _ => below)
  disabled holds below := tableOk_setSlot holds (fun _ => below)
  handle below := below
  port holds fits := ⟨holds.1, fun run work => (fits _ work).elim (holds.2 run) id⟩
  work {_ s w} holds work := by
    cases w with
    | testing run => exact holds.2 run work
    | claiming rest next stops => exact fun _ _ => trivial
    | _ => trivial
  config holds _ _ := ⟨(), writeConfig_of_setOutput tableOk_kept (fun _ _ p => p) holds⟩
  reset := ⟨(), by decide, nofun⟩

/-! ### The entries -/

theorem writeTo_kind (v : AlterValues) (e : Entry) : (v.writeTo e).kind = e.kind := by
  unfold AlterValues.writeTo Entry.kind
  cases e.action <;> rfl

theorem writeTo_output (v : AlterValues) (e : Entry) : (v.writeTo e).output = e.output := by
  unfold AlterValues.writeTo Entry.output
  cases e.action <;> rfl

theorem writeTo_notify (v : AlterValues) (e : Entry) : (v.writeTo e).kind = .mark → (v.writeTo e).notify = true := by
  intro mark
  rw [writeTo_kind] at mark
  simp [AlterValues.writeTo, mark]

/-- The fields of a slot still agree after every write of the part's work (R11 to R13, R130). -/
theorem Slot.Next.ok {v w : Slot} (next : Slot.Next v w) (ok : SlotOk v) : SlotOk w := by
  obtain ⟨notify, fields⟩ := ok
  cases next with
  | same => exact ⟨notify, fields⟩
  | freed => exact ⟨nofun, trivial⟩
  | spoiled => cases v <;> exact ⟨notify, fields⟩
  | restaged e _ values => exact ⟨fun _ is => by cases is; exact writeTo_notify values e, trivial⟩
  | placed e _ => exact ⟨notify, nofun, nofun, nofun⟩
  | fenced takes =>
    refine ⟨fun e is => notify e ?_, trivial⟩
    cases is
    rcases toFence_eq_some takes with ⟨_, rfl, -, -⟩ | ⟨_, _, rfl, -, -⟩ <;> rfl
  | fired e _ r rev dir admits =>
    refine ⟨notify, admits.1, admits.2, fun spent => ?_⟩
    simp only [Run.fired, Bool.or_eq_true] at spent
    exact spent.elim fields.2.2 id
  | idled e _ r => exact ⟨notify, nofun, nofun, fields.2.2⟩
  | unspent e _ r => exact ⟨notify, fields.1, fields.2.1, nofun⟩
  | altered e _ r values => exact ⟨fun _ is => by cases is; exact writeTo_notify values e, nofun, nofun, nofun⟩
  | logged => exact ⟨notify, fields⟩
  | relogged => exact ⟨notify, fields⟩
  | missed e _ log => exact ⟨notify, fields⟩
  | retired ok entry kept =>
    unfold retiredSlot; split
    · next pending => exact ⟨fun e is => notify e (by cases is; exact entry), pending⟩
    · exact ⟨nofun, trivial⟩

theorem entriesOk_setSlot {s : State} {h : Nat} {v : Slot} (holds : s.EntriesOk) (ok : SlotOk v) :
    (s.setSlot h v).EntriesOk := by
  intro k
  rw [State.setSlot_slot]
  split
  · exact ok
  · exact holds k

theorem entriesOk_kept : Kept State.EntriesOk (fun _ => True) where
  view same holds := by
    have table := ((view_eq_iff _ _).1 same).1
    unfold State.EntriesOk State.slot
    rw [table]
    exact holds
  slot holds next := entriesOk_setSlot holds (next.ok (holds _))
  rest holds _ := holds
  ready holds := holds
  task _ _ := trivial
  fence _ _ _ := trivial
  plain _ := trivial

theorem entriesOk_stepKept : StepKept (fun _ : Unit => State.EntriesOk) (fun _ _ => True) (fun _ => True) where
  kept _ := entriesOk_kept
  staged holds _ _ notify := entriesOk_setSlot holds ⟨fun e is => by cases is; exact notify, trivial⟩
  disabled holds _ := entriesOk_setSlot holds ⟨nofun, trivial⟩
  handle _ := trivial
  port holds _ := holds
  work {_ _ w} _ _ := by cases w <;> simp [Work.Fits]
  config holds _ _ := ⟨(), writeConfig_of_setOutput entriesOk_kept (fun _ _ p => p) holds⟩
  reset := ⟨(), fun _ => ⟨nofun, trivial⟩⟩

/-! ### The outputs that entries target -/

/-- The wiring of outputs: the binding and the drive type of each. -/
abbrev Wiring := OutId → Option AxisId × DriveType

/-- The output of a claim 2 that waits is bound, with the drive type that the kind asks for, under a wiring (R7). -/
def Wiring.FitsFence (w : Wiring) : Task → Prop
  | .fenceOutput _ o kind _ => (w o).1 ≠ none ∧ (w o).2.fits kind = true
  | _ => True

theorem fenceFits_iff {s : State} {w : Wiring} (wired : s.wiring = w) (t : Task) : s.FenceFits t ↔ w.FitsFence t := by
  subst wired
  cases t <;> exact Iff.rfl

/-- Every entry in service and every fence that waits is on an output that fits, under a wiring. -/
def State.BoundTo (s : State) (w : Wiring) : Prop := s.wiring = w ∧ s.BindingsOk

theorem outputFits_eq {s t : State} (same : t.wiring = s.wiring) (e : Entry) : t.outputFits e = s.outputFits e := by
  unfold State.outputFits
  cases e.output with
  | none => rfl
  | some o =>
    have wire := congrFun same o
    simp only [State.wiring, Prod.mk.injEq] at wire
    simp only [wire]

theorem outputFits_writeTo (s : State) (v : AlterValues) (e : Entry) : s.outputFits (v.writeTo e) = s.outputFits e := by
  unfold State.outputFits
  rw [writeTo_output, writeTo_kind]
  rfl

/-- An entry whose output fits has it bound, with the drive type its kind asks for (R7). -/
theorem wiring_of_outputFits {s : State} {e : Entry} {o : OutId} (fits : s.outputFits e = true)
    (output : e.output = some o) : (s.wiring o).1 = some e.axis ∧ (s.wiring o).2.fits e.kind = true := by
  simpa [State.outputFits, output, State.wiring] using fits

/-- The entries in service still target an output that fits, after every write of the part's work. -/
theorem Slot.Next.inService {v w : Slot} (next : Slot.Next v w) {fits : Entry → Bool}
    (same : ∀ (values : AlterValues) e, fits (values.writeTo e) = fits e)
    (ok : v.inService (fun e => !fits e) = false) : w.inService (fun e => !fits e) = false := by
  cases next with
  | freed => rfl
  | spoiled => cases v <;> exact ok
  | restaged e _ values => simpa [Slot.inService, same] using ok
  | altered e _ r values => simpa [Slot.inService, same] using ok
  | fenced takes => rcases toFence_eq_some takes with ⟨_, rfl, -, -⟩ | ⟨_, _, rfl, -, -⟩ <;> exact ok
  | retired => unfold retiredSlot; split <;> rfl
  | _ => exact ok

theorem boundTo_setSlot {s : State} {w : Wiring} {h : Nat} {v : Slot} (holds : s.BoundTo w)
    (table : (s.setSlot h v).TableOk) (fits : v.inService (fun e => !s.outputFits e) = false) :
    (s.setSlot h v).BoundTo w := by
  obtain ⟨wired, -, entries, channels, claims⟩ := holds
  refine ⟨wired, table, fun k => ?_, channels, claims⟩
  rw [State.setSlot_slot]
  split
  · exact fits
  · exact entries k

theorem boundTo_kept (w : Wiring) : Kept (State.BoundTo · w) w.FitsFence where
  view {s t} same holds := by
    obtain ⟨table, wiring, rests, work⟩ := (view_eq_iff s t).1 same
    obtain ⟨wired, tableOk, entries, channels, claims⟩ := holds
    refine ⟨wiring.trans wired, tableOk_kept.view same tableOk, fun h => ?_, fun a u m => ?_, fun u m => ?_⟩
    · have slot : t.slot h = s.slot h := by unfold State.slot; rw [table]
      rw [slot, funext (outputFits_eq wiring)]
      exact entries h
    · rw [fenceFits_iff (wiring.trans wired), ← fenceFits_iff wired]
      exact channels a u (rests a ▸ m)
    · rw [fenceFits_iff (wiring.trans wired), ← fenceFits_iff wired]
      refine claims u ?_
      simp only [PortState.claims, work] at m ⊢
      exact m
  slot holds next :=
    boundTo_setSlot holds (tableOk_kept.slot holds.2.1 next) (next.inService (outputFits_writeTo _) (holds.2.2.1 _))
  rest {s a c} holds fits := by
    obtain ⟨wired, tableOk, entries, channels, claims⟩ := holds
    refine ⟨wired, tableOk, entries, fun b u m => ?_, claims⟩
    rw [State.setChannel_channel] at m
    split at m
    · exact (fits u m).elim (channels a u) ((fenceFits_iff wired u).2)
    · exact channels b u m
  ready {s} holds := by
    obtain ⟨wired, tableOk, entries, channels, -⟩ := holds
    refine ⟨wired, tableOk_kept.ready tableOk, entries, channels, fun u m => ?_⟩
    cases eq : s.port.state <;> simp [PortState.claims, eq, PortState.makeReady, PortState.work?] at m
  task {s a t} holds m := (fenceFits_iff holds.1 t).1 (holds.2.2.2.1 a t m)
  fence {s h e wasActive log o} holds takes output := by
    have fits : s.outputFits e = true := by
      have entry := holds.2.2.1 h
      rcases toFence_eq_some takes with ⟨ok, eq, -, -⟩ | ⟨ok, r, eq, -, -⟩ <;> simpa [eq, Slot.inService] using entry
    have wire := wiring_of_outputFits fits output
    rw [holds.1] at wire
    exact ⟨by simp [wire.1], wire.2⟩
  plain {t} noFence := by
    cases t with
    | fenceOutput h o kind wasActive => simpa [Task.fences] using noFence o
    | _ => trivial

/-! ### The claims of fences that a CONFIG_OUTPUT takes -/

theorem eq_fenceOutput {o : OutId} {t : Task} (fences : t.fences o = true) :
    ∃ h kind wasActive, t = .fenceOutput h o kind wasActive := by
  cases t with
  | fenceOutput h o' kind wasActive =>
    exact ⟨h, kind, wasActive, by rw [show o' = o by simpa [Task.fences] using fences]⟩
  | _ => cases fences

/-- What the write of an output record keeps, the claims 2 of fences on the output keep. -/
theorem runFences_keeps {P : State → Prop} {o : OutId} (writes : ∀ s x, P s → P (s.setOutput o x)) {s : State}
    (ts : List Task) (holds : P s) : P ((ts.filter (Task.fences o)).foldl State.runClaim s) :=
  foldl_keepsProp (Q := fun t => t.fences o = true) (fun s t p fences => by
    obtain ⟨h, kind, wasActive, rfl⟩ := eq_fenceOutput fences
    exact writes s _ p) _ (fun _ m => (List.mem_filter.1 m).2) holds

theorem takeFences_slot (s : State) (o : OutId) (h : Nat) : (s.takeFences o).slot h = s.slot h :=
  foldl_keeps (fun t : State => t.slot h) (State.takeFence o) (fun t _ =>
    runFences_keeps (P := fun u => u.slot h = t.slot h) (fun _ _ p => p) _ rfl) axisIds s

theorem takeFence_rest (o : OutId) (s : State) (a b : AxisId) : ((State.takeFence o s a).channel b).rest =
    if a = b then (s.channel a).rest.filter (fun t => !t.fences o) else (s.channel b).rest := by
  unfold State.takeFence
  refine runFences_keeps (P := fun u => (u.channel b).rest =
    if a = b then (s.channel a).rest.filter (fun t => !t.fences o) else (s.channel b).rest) (fun _ _ p => p) _ ?_
  rw [State.setChannel_channel]
  split <;> rfl

/-- After the claims of fences on an output are taken none waits for it (R99). -/
theorem takeFences_rest (s : State) (o : OutId) (b : AxisId) :
    ∀ t ∈ ((s.takeFences o).channel b).rest, t.fences o = false := by
  obtain ⟨before, after, axes⟩ : ∃ before after, axisIds = before ++ b :: after :=
    List.append_of_mem (List.mem_finRange b)
  unfold State.takeFences
  rw [axes, List.foldl_append, List.foldl_cons]
  refine Kept.foldl (P := fun u => ∀ t ∈ (u.channel b).rest, t.fences o = false) (fun u a none t m => ?_) after
    (fun t m => ?_)
  · rw [takeFence_rest] at m
    split at m
    · simpa using (List.mem_filter.1 m).2
    · exact none t m
  · rw [takeFence_rest, if_pos rfl] at m
    simpa using (List.mem_filter.1 m).2

theorem targeting_eq_zero_iff (s : State) (o : OutId) : s.targeting o = 0 ↔
    ∀ h < Config.slotCount, (s.slot h).inService (Entry.targets o) = false := by
  simp [State.targeting, mem_handles]

/-- An output that no entry in service targets, and for which no fence waits, can be given another binding and another
drive type (R97, R99). -/
theorem bindingsOk_setOutput {s : State} {o : OutId} (x : Output) (holds : s.BindingsOk)
    (untargeted : ∀ h, (s.slot h).inService (Entry.targets o) = false)
    (unfenced : ∀ a, ∀ t ∈ (s.channel a).rest, t.fences o = false) (free : s.port.state.claims = []) :
    (s.setOutput o x).BindingsOk := by
  obtain ⟨tableOk, entries, channels, -⟩ := holds
  refine ⟨tableOk, fun h => ?_, fun a t m => ?_, fun t m => ?_⟩
  · have fits : ∀ e, e.targets o = false → (s.setOutput o x).outputFits e = s.outputFits e := by
      intro e other
      unfold State.outputFits
      cases output : e.output with
      | none => rfl
      | some p =>
        have ne : o ≠ p := by rintro rfl; simp [Entry.targets, output] at other
        simp only [State.setOutput_output, if_neg ne]
    have target := untargeted h
    have entry := entries h
    rw [State.setOutput_slot]
    cases eq : s.slot h <;> simp_all [Slot.inService]
  · have fits := channels a t m
    have other := unfenced a t m
    cases t with
    | fenceOutput h p kind wasActive =>
      have ne : o ≠ p := by rintro rfl; simp [Task.fences] at other
      simpa only [State.FenceFits, State.setOutput_output, if_neg ne] using fits
    | _ => trivial
  · rw [State.setOutput_port, free] at m
    cases m

theorem bindingsOk_writeConfig {s : State} {c : OutputConfig} (holds : s.BindingsOk) (free : s.port.state.claims = [])
    (unblocked : s.outputBlocked c = false) : (s.writeConfig c).BindingsOk := by
  have bound : s.BoundTo s.wiring := ⟨rfl, holds⟩
  have rebinds {t : State} (p : t.BindingsOk) : (if (s.output c.output).binding = c.binding then t
      else t.rebound c.output).BindingsOk := by
    split
    · exact p
    · exact ((boundTo_kept t.wiring).view (rebound_view t c.output) ⟨rfl, p⟩).2
  refine rebinds ?_
  split
  · next same => exact ((boundTo_kept s.wiring).view (setOutput_view same.1.symm same.2.symm) bound).2
  · next changed =>
    have target : s.targeting c.output = 0 := by
      simp only [State.outputBlocked, Bool.or_eq_false_iff, Bool.and_eq_false_iff, bne_eq_false_iff_eq,
        decide_eq_false_iff_not, Nat.not_lt, Nat.le_zero] at unblocked
      exact unblocked.1.resolve_left changed
    refine bindingsOk_setOutput _ ((boundTo_kept s.wiring).takeFences c.output bound).2 (fun h => ?_)
      (takeFences_rest s c.output) ?_
    · rw [takeFences_slot]
      by_cases below : h < Config.slotCount
      · exact (targeting_eq_zero_iff s _).1 target h below
      · rw [State.slot, Table.wf_get_above holds.1.1 (Nat.le_of_not_lt below)]
        rfl
    · exact claimsFree_kept.takeFences c.output free

theorem boundTo_stepKept :
    StepKept (fun w s => State.BoundTo s w) (fun w => w.FitsFence) (· < Config.slotCount) where
  kept := boundTo_kept
  staged holds below fits _ :=
    boundTo_setSlot holds (tableOk_setSlot holds.2.1 (fun _ => below)) (by simp [Slot.inService, fits])
  disabled holds below := boundTo_setSlot holds (tableOk_setSlot holds.2.1 (fun _ => below)) rfl
  handle below := below
  port {w s p} holds fits := by
    obtain ⟨wired, tableOk, entries, channels, claims⟩ := holds
    refine ⟨wired, tableOk_stepKept.port (i := ()) tableOk (fun work is => ?_), entries, channels, fun t m => ?_⟩
    · refine (fits work is).imp_right (fun fits => ?_)
      cases work with
      | claiming rest next stops => exact fun _ _ => trivial
      | _ => exact fits
    · unfold PortState.claims at m
      split at m
      · next rest next stops work =>
        rcases fits _ work with same | fits
        · exact claims t (by simpa [PortState.claims, same] using m)
        · exact (fenceFits_iff wired t).2 (fits t m)
      · cases m
  work {w s work} holds is := by
    cases work with
    | claiming rest next stops =>
      intro t m
      exact (fenceFits_iff holds.1 t).1 (holds.2.2.2.2 t (by simpa [PortState.claims, is] using m))
    | testing run => exact holds.2.1.2 run is
    | _ => trivial
  config holds free unblocked := ⟨_, rfl, bindingsOk_writeConfig holds.2 free unblocked⟩
  reset := ⟨_, rfl, ⟨by decide, nofun⟩, fun _ => rfl, fun a t m => by simp [reset_channel, Channel.quiet] at m, nofun⟩

/-- An output with binding none, or of drive type TOGGLE, has no ACTIVE entry and no waiting fence of one (R7, R86). -/
theorem counts_eq_zero {s : State} (bound : s.BindingsOk) {o : OutId} {k : Kind} (level : k = .window ∨ k = .pulse)
    (idle : (s.output o).binding = none ∨ (s.output o).drive = .toggle) :
    handles.countP (fun h => (s.slot h).drives k o) + s.fencesWaiting k o = 0 := by
  obtain ⟨-, entries, channels, claims⟩ := bound
  have unfit : (s.output o).binding ≠ none → (s.output o).drive.fits k = false := by
    intro bound
    rw [idle.resolve_left bound]
    rcases level with rfl | rfl <;> rfl
  have none_ : ∀ t, s.FenceFits t → Task.undrives k o t = false := by
    intro t fits
    cases t with
    | fenceOutput h p kind wasActive =>
      by_contra drives
      simp only [Task.undrives, Bool.not_eq_false, Bool.and_eq_true, beq_iff_eq] at drives
      obtain ⟨⟨-, rfl⟩, rfl⟩ := drives
      exact absurd fits.2 (by simp [unfit fits.1])
    | _ => rfl
  have slots : ∀ h, (s.slot h).drives k o = false := by
    intro h
    have entry := entries h
    cases eq : s.slot h with
    | live e ok r =>
      by_contra drives
      simp only [Slot.drives, Slot.entry?, Option.any, Entry.targets, Bool.not_eq_false, Bool.and_eq_true,
        beq_iff_eq] at drives
      obtain ⟨-, rfl, output⟩ := drives
      have wire := wiring_of_outputFits (s := s) (e := e) (by simpa [eq, Slot.inService] using entry) output
      simp only [State.wiring] at wire
      exact absurd wire.2 (by simp [unfit (by simp [wire.1])])
    | _ => rfl
  have waiting : s.fencesWaiting k o = 0 := by
    simp only [State.fencesWaiting, Nat.add_eq_zero_iff, List.countP_eq_zero, Bool.not_eq_true]
    refine ⟨?_, fun t m => none_ t (claims t m)⟩
    have each : ∀ a : AxisId, (s.channel a).rest.countP (Task.undrives k o) = 0 :=
      fun a => List.countP_eq_zero.2 (fun t m => by simp [none_ t (channels a t m)])
    simp [each]
  simp [slots, waiting]

end Sys2Proof.Machine

open Sys2Proof Sys2Proof.Machine

/-- Settles O51: the canonical form of the table is a `StepKept` invariant. -/
theorem stepsKeepTheTableCanonical : Obligations.StepsKeepTheTableCanonical := by
  unfold Obligations.StepsKeepTheTableCanonical
  intro s t holds taken
  obtain ⟨-, kept⟩ := tableOk_stepKept.step (i := ()) holds taken
  exact kept

/-- Settles O52: so is the agreement of every slot's fields. -/
theorem stepsKeepEntriesSound : Obligations.StepsKeepEntriesSound := by
  unfold Obligations.StepsKeepEntriesSound
  intro s t holds taken
  obtain ⟨-, kept⟩ := entriesOk_stepKept.step (i := ()) holds taken
  exact kept

/-- Settles O58: the wiring of the outputs stands but for a CONFIG_OUTPUT, which writes it where no entry and no fence
is on the output. -/
theorem stepsKeepEntriesOnTheirAxis : Obligations.StepsKeepEntriesOnTheirAxis := by
  unfold Obligations.StepsKeepEntriesOnTheirAxis
  refine ⟨fun s t holds taken => ?_, fun s bound counts o idle => ?_⟩
  · obtain ⟨w, kept⟩ := boundTo_stepKept.step (i := s.wiring) ⟨rfl, holds⟩ taken
    exact kept.2
  · have count := counts.2 o
    rw [counts_eq_zero bound (.inl rfl) idle, counts_eq_zero bound (.inr rfl) idle] at count
    exact count

end

section
/-! SUPPORT. The state that a device reset leaves, and the invariants of the part there. -/

namespace Sys2Proof.Machine

/-- In reset there is no slot in use, so none of a kind that is in use is counted (R6). -/
theorem reset_slot (h : Nat) : State.reset.slot h = .free := rfl

/-- With no slot in use, no fault reported and nothing latched no reason is present (R137). -/
theorem presentSet_of_empty {s : State} (table : s.table = []) (report : s.report = none) (latched : s.latched = 0#7) :
    s.presentSet = 0#7 := by
  have members : s.notifySet = [] := by
    simp [State.notifySet, State.slot, table, Table.get, Slot.isMember, Slot.log?]
  simp [State.presentSet, State.levelReasons, members, report, latched]

theorem reset_tableOk : State.reset.TableOk := by
  obtain ⟨-, holds⟩ := tableOk_stepKept.reset
  exact holds

theorem reset_countsOk : State.reset.CountsOk := by
  refine ⟨reset_tableOk, fun o => ?_⟩
  have waiting (k : Kind) : State.reset.fencesWaiting k o = 0 := by
    have port : State.reset.port.state.claims = [] := rfl
    simp [State.fencesWaiting, reset_channel, Channel.quiet, port]
  simp [reset_output, Output.reset, waiting, reset_slot, Slot.drives, Slot.isActive]

theorem reset_axesOk : State.reset.AxesOk := by
  intro a
  rw [reset_axis]
  unfold Axis.Ok
  decide

theorem reset_listsOk : State.reset.ListsOk := by
  refine ⟨?_, ?_, ?_, fun h e ok staged => ?_⟩
  · simp [reset_list, PendingList.reset]
  · simp [reset_list, PendingList.reset]
  · simp [reset_list, PendingList.reset]
  · cases staged

theorem reset_safeOk : State.reset.SafeOk :=
  ⟨nofun, fun _ o => by rw [reset_output]; rfl, nofun, nofun, fun _ => ⟨rfl, rfl⟩⟩

end Sys2Proof.Machine

open Sys2Proof Sys2Proof.Machine

/-- Settles O11: the state of a device reset is `State.reset` with the transaction and the queue of before. -/
theorem deviceResetGivesTheResetValues : Obligations.DeviceResetGivesTheResetValues := by
  unfold Obligations.DeviceResetGivesTheResetValues
  intro s
  refine ⟨_, rfl, fun _ => rfl, fun a => ?_, fun a => reset_list a, fun o => ⟨reset_output o, rfl⟩, rfl, rfl,
    presentSet_of_empty rfl rfl rfl, rfl, rfl, rfl, fun a => reset_channel a, rfl, fun opened => ?_, rfl⟩
  · exact congrArg (fun x : Axis => { x with lines := ⟨false, false, false⟩ }) (reset_axis a)
  · cases eq : s.transaction with
    | closed => exact absurd eq opened
    | served frame => simp [Transaction.afterReset]
    | unserved => simp [Transaction.afterReset]

/-- Settles O50: each invariant at the reset values. -/
theorem resetMeetsEveryInvariant : Obligations.ResetMeetsEveryInvariant := by
  unfold Obligations.ResetMeetsEveryInvariant
  obtain ⟨-, entriesOk⟩ := entriesOk_stepKept.reset
  obtain ⟨w, bound⟩ := boundTo_stepKept.reset
  refine ⟨reset_tableOk, entriesOk, reset_countsOk, reset_axesOk, ⟨reset_tableOk, reset_axesOk, fun _ _ _ _ live => ?_⟩,
    fun a => ?_, reset_listsOk, bound.2, reset_safeOk, rfl, nofun, by decide, rfl⟩
  · cases live
  · rw [reset_list]
    exact ⟨Nat.zero_le _, nofun⟩

end

section
/-! SUPPORT. Reads of the table by a request: what a fence by a read leaves, and the records that the reads answer. -/

namespace Sys2Proof.Machine

/-! ### A request whose block leaves claims of fences -/

/-- A request without a stop whose block has claims of fences still to take: they are taken, and its outcome is in
(R160). -/
theorem request_claims (s t : State) (code tag : Byte) (args : List Byte) (block : Handler) (l : Lines) (n : Nat)
    (claims : List Task) (status : Status) (payload : List Byte) (known : argLength code = some n)
    (len : args.length = n) (short : n ≤ 60) (ready : s.Ready tag)
    (alone : passesApplications code = true ∨ ∀ a, s.applying a = false) (stops : t.stops = [])
    (worked : block args (s.answers code tag (.waiting args l .prompt))
      = (t.answers code tag (.waiting args l .prompt), claimed claims (.reply status payload))) :
    s.request code (frameRest code tag args) .prompt block l
      = (claims.foldl State.runClaim t).answers code tag (.ready status payload .nothing) := by
  have run := request_now s code tag args [] block l n .prompt rfl known len short ready
  rw [List.append_nil] at run
  have now : s.stops = [] := ready.2.2.2.2
  have still : ({ s with stops := Pace.prompt.stops } : State) = s := by
    rw [show Pace.prompt.stops = s.stops from now.symm]
  have claimsStops (u : State) (c : Task) : (u.runClaim c).stops = u.stops :=
    State.stops_of_outside (State.outside_of_still (runClaim_still u c))
  have wentOn : t.goOn ((claimed claims (.reply status payload)).inOrder Pace.prompt.order)
      = (claims.foldl State.runClaim t, replied status payload) := by
    simp only [Work.inOrder, State.goOn, takeClaims_prompt t claims stops (fun u c => claimsStops u c), State.proceed]
  have kept : ({ claims.foldl State.runClaim t with stops := s.stops } : State) = claims.foldl State.runClaim t := by
    rw [now, ← stops, ← foldl_keeps State.stops State.runClaim claimsStops claims t]
  rw [run, runBlock_answers s t _ code tag _ _ _ block args .prompt alone (by rw [still]; exact worked) wentOn, kept]

/-! ### What a record of a slot shows -/

/-- What the records of a slot are made of: the slot, the axes, the leads, and the items that name the slot. -/
def State.sight (s : State) (h : Nat) : Slot × Vector Axis 4 × (OutId → Int) × (AxisId → Option Item) :=
  (s.slot h, s.axes, fun o => (s.output o).lead, fun a => (s.list a).itemOf h)

theorem sight_eq_iff (s t : State) (h : Nat) : t.sight h = s.sight h ↔
    t.slot h = s.slot h ∧ t.axes = s.axes ∧ (∀ o, (t.output o).lead = (s.output o).lead)
      ∧ ∀ a, (t.list a).itemOf h = (s.list a).itemOf h := by
  simp only [State.sight, Prod.mk.injEq, funext_iff]

theorem effective_of_sight {s t : State} {h : Nat} (same : t.sight h = s.sight h) (e : Entry) :
    t.effective e = s.effective e := by
  obtain ⟨-, axes, leads, -⟩ := (sight_eq_iff s t h).1 same
  funext p
  unfold State.effective State.leadFor State.axis
  cases e.output <;> simp only [axes, leads]

theorem itemOf_of_sight {s t : State} {h : Nat} (same : t.sight h = s.sight h) : t.itemOf h = s.itemOf h := by
  obtain ⟨slot, -, -, items⟩ := (sight_eq_iff s t h).1 same
  unfold State.itemOf
  rw [slot]
  split <;> simp only [items]

theorem entryRecord_of_sight {s t : State} {h : Nat} (same : t.sight h = s.sight h) (e : Entry) :
    t.entryRecord h e = s.entryRecord h e := by
  have slot := ((sight_eq_iff s t h).1 same).1
  simp only [State.entryRecord, State.effOn, State.effOff, effective_of_sight same, itemOf_of_sight same, slot]

theorem listRecord_of_sight {s t : State} {h : Nat} (same : t.sight h = s.sight h) :
    t.listRecord h = s.listRecord h := by
  have slot := ((sight_eq_iff s t h).1 same).1
  simp only [State.listRecord, State.effOn, State.effOff, effective_of_sight same, itemOf_of_sight same, slot]

/-- A record of an entry has 32 bytes (R192). -/
theorem entryRecord_length (s : State) (h : Nat) (e : Entry) : (s.entryRecord h e).length = 32 := by
  simp [State.entryRecord, bytesOf_length]

/-- A record of a listing has 12 bytes (R192). -/
theorem listRecord_length (s : State) (h : Nat) : (s.listRecord h).length = 12 := by
  unfold State.listRecord
  simp only
  split <;> simp [bytesOf_length]

/-! ### The claims of a fence by a read -/

/-- The output record after claim 2 of a fence (R94, R95, R160). -/
theorem fence_eq (x : Output) (kind : Kind) (wasActive : Bool) : x.fence kind wasActive =
    { x with
      faultHold := true
      held := if x.safeHold || x.faultHold then x.held else x.pin
      windowCount := if wasActive = true ∧ kind = .window then x.windowCount - 1 else x.windowCount
      pulseCount := if wasActive = true ∧ kind = .pulse then x.pulseCount - 1 else x.pulseCount } := by
  have capture : x.capture = { x with held := if x.safeHold || x.faultHold then x.held else x.pin } := by
    unfold Output.capture Output.isHeld
    split <;> rfl
  unfold Output.fence
  rw [capture]
  cases wasActive with
  | false => simp
  | true => cases kind <;> simp [Output.countDown]

/-- Claims 2 and 3 of a fence leave what the records show. -/
theorem runClaim_sight (s : State) (t : Task) (h : Nat) (other : ∀ k, t ≠ .hand k) :
    (s.runClaim t).sight h = s.sight h := by
  cases t with
  | hand k => exact absurd rfl (other k)
  | fenceOutput k o kind wasActive =>
    refine (sight_eq_iff s _ h).2 ⟨rfl, rfl, fun p => ?_, fun _ => rfl⟩
    show ((s.setOutput o _).output p).lead = _
    rw [State.setOutput_output]
    split
    · next same => rw [fence_eq, same]
    · rfl
  | fenceReport k a p rev =>
    show (s.reportFault _ a p rev).sight h = _
    unfold State.reportFault; split <;> rfl
  | _ => rfl

/-- Tasks none of which is a handing. -/
abbrev NoHandings (ts : List Task) : Prop := ∀ t ∈ ts, ∀ k, t ≠ .hand k

theorem runClaims_sight {ts : List Task} (noHandings : NoHandings ts) (s : State) (h : Nat) :
    (ts.foldl State.runClaim s).sight h = s.sight h :=
  foldl_keepsProp (P := fun t => t.sight h = s.sight h) (Q := fun t => ∀ k, t ≠ .hand k)
    (fun t c same other => (runClaim_sight t c h other).trans same) ts noHandings rfl

theorem fenceClaims_noHandings (e : Entry) (h : Nat) (act : Bool) (p : Nat) (rev : BitVec 16) :
    NoHandings (e.fenceClaims h act p rev) := by
  unfold Entry.fenceClaims
  intro t m k is
  subst is
  cases output : e.output <;> simp [output] at m

theorem checkRead_noHandings (s : State) (h : Nat) : NoHandings (s.checkRead h).2 := by
  unfold State.checkRead; split
  · unfold State.beginFence; split
    · exact fenceClaims_noHandings _ _ _ _ _
    · exact nofun
  · exact nofun

/-- The handings that a STAGED slot discards change no list, no output, no axis and no report. -/
theorem takeHandings_frame (s : State) (h : Nat) :
    ((s.takeHandings h).lists, (s.takeHandings h).outputs, (s.takeHandings h).axes, (s.takeHandings h).report)
      = (s.lists, s.outputs, s.axes, s.report) :=
  foldl_keeps (fun t : State => (t.lists, t.outputs, t.axes, t.report)) (State.takeHanding h) (fun t a => by
    unfold State.takeHanding; split
    · split
      · unfold State.hand; split <;> rfl
      · rfl
    · rfl) axisIds s

/-- Claim 1 of a fence changes outputs, axes and report not at all, and the list of the entry's axis by the item
dropped. -/
theorem fenceSlot_frame (s : State) (h : Nat) (e : Entry) (log : FireLog) :
    (s.fenceSlot h e log).lists = s.lists.set e.axis ((s.list e.axis).drop h)
      ∧ (s.fenceSlot h e log).outputs = s.outputs ∧ (s.fenceSlot h e log).axes = s.axes
      ∧ (s.fenceSlot h e log).report = s.report := by
  have frame := takeHandings_frame s h
  simp only [Prod.mk.injEq] at frame
  unfold State.fenceSlot
  simp only [State.setList_lists, State.setList_outputs, State.setList_axes, State.setList_report, State.setSlot_lists,
    State.setSlot_outputs, State.setSlot_axes, State.setSlot_report]
  split
  · exact ⟨by rw [frame.1], frame.2⟩
  · exact ⟨rfl, rfl, rfl, rfl⟩

/-- The items that do not name the fenced entry stand in its list (R127). -/
theorem drop_itemOf_ne (l : PendingList) {h k : Nat} (ne : h ≠ k) : (l.drop h).itemOf k = l.itemOf k := by
  unfold PendingList.drop; split
  · unfold PendingList.itemOf
    rw [List.find?_filter]
    congr 1
    funext i
    cases named : i.names k with
    | false => simp
    | true =>
      have other : i.names h = false := by
        simp only [Item.names, beq_iff_eq, beq_eq_false_iff_ne] at named ⊢
        rw [named]
        simpa using Ne.symm ne
      simp [other]
  · rfl

theorem drop_items (l : PendingList) (h : Nat) : (l.drop h).items = l.items.filter (fun i => !i.names h) := by
  unfold PendingList.drop; split
  · rfl
  · next unnamed =>
    symm
    simp only [List.any_eq_true, not_exists, not_and, Bool.not_eq_true] at unnamed
    simpa [List.filter_eq_self] using unnamed

theorem drop_closed (l : PendingList) (h : Nat) : (l.drop h).closed = l.closed := by
  unfold PendingList.drop; split <;> rfl

theorem fenceSlot_list (s : State) (h : Nat) (e : Entry) (log : FireLog) (a : AxisId) :
    (s.fenceSlot h e log).list a = if e.axis = a then (s.list e.axis).drop h else s.list a := by
  rw [State.list, (fenceSlot_frame s h e log).1]
  exact State.setList_list s e.axis a _

theorem fenceSlot_output (s : State) (h : Nat) (e : Entry) (log : FireLog) (o : OutId) :
    (s.fenceSlot h e log).output o = s.output o := by
  rw [State.output, (fenceSlot_frame s h e log).2.1]; rfl

/-- A read of one entry leaves what the records of another show. -/
theorem checkRead_sight_ne (s : State) {h k : Nat} (ne : h ≠ k) : (s.checkRead h).1.sight k = s.sight k := by
  unfold State.checkRead; split
  · unfold State.beginFence; split
    · next e wasActive log _ =>
      refine (sight_eq_iff s _ k).2 ⟨?_, (fenceSlot_frame s h e log).2.2.1, fun o => ?_, fun a => ?_⟩
      · simp only [fenceSlot_slot, if_neg ne]
      · rw [fenceSlot_output]
      · rw [fenceSlot_list]
        split
        · next same => rw [drop_itemOf_ne _ ne, same]
        · rfl
    · rfl
  · rfl

/-- The fence of an entry found inconsistent by a read without a stop: its claims, one after the other (R160). -/
structure FenceLeaves (s t : State) (h : Nat) (e : Entry) (wasActive : Bool) (log : FireLog) : Prop where
  slot : ∀ k, t.slot k = if h = k then .fenced e false log else s.slot k
  list : ∀ a, t.list a = if e.axis = a then (s.list e.axis).drop h else s.list a
  output : ∀ o, t.output o = if e.output = some o then (s.output o).fence e.kind wasActive else s.output o
  axes : t.axes = s.axes
  report : t.report = (s.reportFault (.entryCheck h) e.axis (s.axis e.axis).position (s.axis e.axis).revolution).report

@[simp] theorem reportFault_list (s : State) (cause : FaultCause) (a : AxisId) (p : Nat) (rev : BitVec 16)
    (b : AxisId) :
    (s.reportFault cause a p rev).list b = s.list b := by
  unfold State.reportFault; split <;> rfl

@[simp] theorem reportFault_output (s : State) (cause : FaultCause) (a : AxisId) (p : Nat) (rev : BitVec 16)
    (o : OutId) : (s.reportFault cause a p rev).output o = s.output o := by
  unfold State.reportFault; split <;> rfl

theorem reportFault_report {s t : State} (same : t.report = s.report) (cause : FaultCause) (a : AxisId) (p : Nat)
    (rev : BitVec 16) : (t.reportFault cause a p rev).report = (s.reportFault cause a p rev).report := by
  unfold State.reportFault
  rw [same]
  split <;> rfl

/-- The output of a fenced entry after claim 2 (R160). -/
def State.fenceOutputOf (s : State) (e : Entry) (wasActive : Bool) : State :=
  match e.output with
  | some o => s.setOutput o ((s.output o).fence e.kind wasActive)
  | none => s

theorem fenceClaims_run (s : State) (e : Entry) (h : Nat) (wasActive : Bool) (p : Nat) (rev : BitVec 16) :
    (e.fenceClaims h wasActive p rev).foldl State.runClaim s
      = (s.fenceOutputOf e wasActive).reportFault (.entryCheck h) e.axis p rev := by
  unfold Entry.fenceClaims State.fenceOutputOf
  cases e.output <;> rfl

theorem fence_leaves {s : State} {h : Nat} {e : Entry} {wasActive : Bool} {log : FireLog}
    (takes : (s.slot h).toFence = some (e, wasActive, log)) :
    FenceLeaves s ((s.beginFence h).2.foldl State.runClaim (s.beginFence h).1) h e wasActive log := by
  obtain ⟨-, -, axes, report⟩ := fenceSlot_frame s h e log
  unfold State.beginFence
  rw [takes]
  have sight := runClaims_sight (fenceClaims_noHandings e h wasActive (s.axis e.axis).position
    (s.axis e.axis).revolution) (s.fenceSlot h e log)
  refine ⟨fun k => ?_, fun a => ?_, fun o => ?_, ?_, ?_⟩
  · rw [((sight_eq_iff _ _ k).1 (sight k)).1, fenceSlot_slot]
  · rw [← fenceSlot_list s h e log, fenceClaims_run, reportFault_list]
    unfold State.fenceOutputOf
    cases e.output <;> rfl
  · rw [fenceClaims_run, reportFault_output]
    unfold State.fenceOutputOf
    cases output : e.output with
    | none => simp [fenceSlot_output]
    | some p =>
      simp only [State.setOutput_output, fenceSlot_output, Option.some.injEq]
      split
      · next same => rw [same]
      · rfl
  · rw [((sight_eq_iff _ _ h).1 (sight h)).2.1, axes]
  · rw [fenceClaims_run]
    refine reportFault_report (Eq.trans ?_ report) _ _ _ _
    unfold State.fenceOutputOf
    cases e.output <;> rfl

/-! ### READ_ENTRY -/

/-- What a function that does not look at the port gives, carried over to the state that answers a request. -/
theorem PortBlindWith.carried {α : Type} {f : State → State × α} (blind : PortBlindWith f) {s t : State} {x : α}
    (is : f s = (t, x)) (code tag : Byte) (w : Work) : f (s.answers code tag w) = (t.answers code tag w, x) := by
  rw [blind, is]

theorem readEntry_answers (h : Nat) : PortBlindWith (fun s => s.readEntry h) := by
  intro s code tag w
  have read := checkRead_answers h s code tag w
  simp only at read
  simp only [State.readEntry, read, State.answers_slot]
  cases ((s.checkRead h).1.slot h).entry? <;> rfl

theorem readEntryBlock_bytes {h : Nat} (below : h < 512) (s : State) :
    readEntryBlock (bytesOf 2 h) s = s.readEntry h := by
  simp only [readEntryBlock, natAt_bytesOf_two h (by omega), handleOf, Config.slotCount, below, if_true]

/-- READ_ENTRY of a slot that holds an entry, in a state that takes the request (R22, R23). -/
theorem execReadEntry_ready {s : State} {tag : Byte} {h : Nat} (ready : s.ReadyAlone tag) (below : h < 512)
    {e : Entry} (entry : ((s.checkRead h).1.slot h).entry? = some e) :
    exec (.readEntry ⟨frameRest 0x38#8 tag (bytesOf 2 h), .prompt⟩) s =
      .next (((s.checkRead h).2.foldl State.runClaim (s.checkRead h).1).answers 0x38#8 tag
        (.ready .done ((s.checkRead h).1.entryRecord h e) .nothing)) := by
  refine congrArg Host.Outcome.next (request_claims s (s.checkRead h).1 0x38#8 tag _ readEntryBlock _ 2
    (s.checkRead h).2 .done _ rfl (bytesOf_length 2 h) (by decide) ready.1 (.inr ready.2) ?_ ?_)
  · exact (State.stops_of_outside (State.outside_of_still (checkRead_still s h))).trans ready.1.2.2.2.2
  · have answer : s.readEntry h
        = ((s.checkRead h).1, claimed (s.checkRead h).2 (.reply .done ((s.checkRead h).1.entryRecord h e))) := by
      simp only [State.readEntry, entry]
    rw [readEntryBlock_bytes below]
    exact (readEntry_answers h).carried answer _ _ _

/-- READ_ENTRY of a slot without an entry (R23). -/
theorem execReadEntry_none {s : State} {tag : Byte} {h : Nat} (ready : s.ReadyAlone tag) (below : h < 512)
    (none_ : s.slot h = .free ∨ s.slot h = .disabled) :
    exec (.readEntry ⟨frameRest 0x38#8 tag (bytesOf 2 h), .prompt⟩) s =
      .next (s.answers 0x38#8 tag (bare .noSuchEntry)) := by
  refine congrArg Host.Outcome.next (request_replies s 0x38#8 tag _ readEntryBlock _ 2 .noSuchEntry [] .nothing rfl
    (bytesOf_length 2 h) (by decide) ready.1 (.inr ready.2) ?_)
  have answer : s.readEntry h = (s, bare .noSuchEntry) := by
    rcases none_ with slot | slot <;> simp [State.readEntry, State.checkRead, Slot.failsCheck, slot, Slot.entry?]
  rw [readEntryBlock_bytes below]
  exact (readEntry_answers h).carried answer _ _ _

/-- A read of an entry whose check value is consistent changes nothing (R158). -/
theorem checkRead_of_passes {s : State} {h : Nat} (passes : (s.slot h).failsCheck = false) :
    s.checkRead h = (s, []) := by
  simp [State.checkRead, passes]

theorem checkRead_of_fails {s : State} {h : Nat} (fails : (s.slot h).failsCheck = true) :
    s.checkRead h = s.beginFence h := by
  simp [State.checkRead, fails]

/-- A slot whose entry fails its check, and what its fence takes along: the record of its passes and whether it was
ACTIVE (R160). -/
theorem toFence_of_inconsistent {v : Slot} {e : Entry} {log : FireLog} {active : Bool}
    (inconsistent : (v = .staged e false ∧ log = FireLog.fresh ∧ active = false)
      ∨ ∃ r, v = .live e false r ∧ log = r.log ∧ (active = true ↔ r.activity ≠ .idle)) :
    v.failsCheck = true ∧ v.toFence = some (e, active, log) := by
  rcases inconsistent with ⟨rfl, rfl, rfl⟩ | ⟨r, rfl, rfl, iff⟩
  · exact ⟨rfl, rfl⟩
  · have wasActive : (r.activity != .idle) = active := by
      rw [Bool.eq_iff_iff, iff, bne_iff_ne]
    exact ⟨rfl, by rw [← wasActive]; rfl⟩

/-- The fault report after a cause: the cause itself, or one more further fault, up to 255. -/
theorem reportFault_cases (s : State) (cause : FaultCause) (a : AxisId) (p : Nat) (rev : BitVec 16) :
    (s.report = none → (s.reportFault cause a p rev).report = some ⟨cause, a, p, rev, 0⟩)
      ∧ ∀ q, s.report = some q →
        (s.reportFault cause a p rev).report
          = some { q with further := if q.further < 255 then q.further + 1 else q.further } := by
  unfold State.reportFault
  constructor
  · intro none_; rw [none_]
  · intro q some_; rw [some_]

end Sys2Proof.Machine

open Sys2Proof Sys2Proof.Machine

/-- Settles O43: the read is `State.checkRead`, and a fence by it leaves what `fence_leaves` states. -/
theorem readEntryChecksTheEntry : Obligations.ReadEntryChecksTheEntry := by
  unfold Obligations.ReadEntryChecksTheEntry
  intro s tag h ready below read bit record
  have records : ∀ t e, (t.slot h).entry? = some e → record t e = t.entryRecord h e := by
    intro t e entry
    have out : ((e.output.bind fun o => pure o.val).map (fun o => byteOf o)).getD 0xFF#8 = outputByte e.output := by
      cases e.output <;> rfl
    have lead : (e.output.map (fun o => (t.output o).lead)).getD 0 = t.leadFor e := by
      unfold State.leadFor; cases e.output <;> rfl
    have eff (p : Nat) : ((p - (e.output.map (fun o => (t.output o).lead)).getD 0 : Int)
        % ((t.axis e.axis).modulus : Int)).toNat = t.effective e p := by rw [lead]; rfl
    simp only [record]
    rw [State.entryRecord]
    simp only [Option.bind_eq_bind, out, eff, bit, State.itemOf, PendingList.itemOf, State.effOn, State.effOff]
    generalize t.slot h = v at *
    cases v with
    | free => cases entry
    | disabled => cases entry
    | _ => cases entry; rfl
  refine ⟨fun e entry passes => ?_, fun none_ => execReadEntry_none ready below none_, ?_⟩
  · have unread := checkRead_of_passes passes
    have ran := execReadEntry_ready ready below (e := e) (by rw [unread]; exact entry)
    rw [unread] at ran
    rw [records s e entry]
    exact ⟨ran, entryRecord_length s h e⟩
  · intro e log active inconsistent
    obtain ⟨fails, takes⟩ := toFence_of_inconsistent inconsistent
    have fenced := fence_leaves takes
    rw [← checkRead_of_fails fails] at fenced
    set u := (s.checkRead h).2.foldl State.runClaim (s.checkRead h).1
    have slot : u.slot h = .fenced e false log := by rw [fenced.slot, if_pos rfl]
    have sight : u.sight h = (s.checkRead h).1.sight h := runClaims_sight (checkRead_noHandings s h) _ h
    have entry : ((s.checkRead h).1.slot h).entry? = some e := by
      rw [← ((sight_eq_iff _ _ h).1 sight).1, slot]; rfl
    have same := entryRecord_of_sight sight e
    set t := u.answers 0x38#8 tag (.ready .done (u.entryRecord h e) .nothing) with ht
    have slots : ∀ k, t.slot k = u.slot k := fun _ => rfl
    have shown : record t e = u.entryRecord h e :=
      (records t e (by rw [slots, slot]; rfl)).trans rfl
    refine ⟨t, ?_, ?_, ?_, slot, fun k ne => ?_, ?_, ?_, fun o is => ?_, fun o isNot => ?_, fenced.axes, ?_, ?_⟩
    · rw [ht, same]; exact execReadEntry_ready ready below entry
    · rw [shown]; rfl
    · rw [shown, State.entryRecord, slot]; rfl
    · exact (fenced.slot k).trans (if_neg ne.symm)
    · refine (congrArg PendingList.items ((fenced.list e.axis).trans (if_pos rfl))).trans (drop_items _ _)
    · refine (congrArg PendingList.closed ((fenced.list e.axis).trans (if_pos rfl))).trans (drop_closed _ _)
    · exact (fenced.output o).trans ((if_pos is).trans (fence_eq _ _ _))
    · exact (fenced.output o).trans (if_neg isNot)
    · exact fun none_ => fenced.report.trans ((reportFault_cases s _ _ _ _).1 none_)
    · exact fun p some_ => fenced.report.trans ((reportFault_cases s _ _ _ _).2 p some_)
end

section
/-! SUPPORT. LIST_AXIS: the order of an axis, and the reads of the entries that a listing returns. -/

namespace Sys2Proof.Machine

/-! ### The order of an axis -/

theorem keyLE_trans {a b c : Nat × Nat} (ab : keyLE a b) (bc : keyLE b c) : keyLE a c := by
  unfold keyLE at *; omega

theorem keyLE_total (a b : Nat × Nat) : keyLE a b ∨ keyLE b a := by
  unfold keyLE; omega

theorem order_perm (s : State) (a : AxisId) : (s.order a).Perm (handles.filter (fun h => (s.slot h).ordered a)) :=
  List.perm_insertionSort _ _

/-- The order of an axis ascends by order key (R21). -/
theorem order_ascends (s : State) (a : AxisId) : (s.order a).Pairwise (fun x y => keyLE (s.key x) (s.key y)) := by
  have total : Std.Total (fun x y => keyLE (s.key x) (s.key y)) := ⟨fun x y => keyLE_total (s.key x) (s.key y)⟩
  have trans : IsTrans Nat (fun x y => keyLE (s.key x) (s.key y)) := ⟨fun x y z => keyLE_trans⟩
  exact List.pairwise_insertionSort _ _

theorem order_nodup (s : State) (a : AxisId) : (s.order a).Nodup :=
  (order_perm s a).nodup_iff.2 ((List.nodup_range (n := Config.slotCount)).filter _)

theorem mem_order {s : State} {a : AxisId} {k : Nat} : k ∈ s.order a ↔ k < 512 ∧ (s.slot k).ordered a = true := by
  rw [(order_perm s a).mem_iff, List.mem_filter, mem_handles]
  rfl

theorem key_answers (s : State) (code tag : Byte) (w : Work) (k : Nat) : (s.answers code tag w).key k = s.key k := rfl

theorem order_answers (s : State) (code tag : Byte) (w : Work) (a : AxisId) :
    (s.answers code tag w).order a = s.order a := by
  simp only [State.order, State.answers_slot, key_answers]
  rfl

/-! ### The reads of a listing -/

theorem list_answers (s : State) (claims : List Task) (bytes : List Byte) (h : Nat) (code tag : Byte) (w : Work) :
    Reading.list ⟨s.answers code tag w, claims, bytes⟩ h =
      { Reading.list ⟨s, claims, bytes⟩ h with
        state := (Reading.list ⟨s, claims, bytes⟩ h).state.answers code tag w } := by
  have read := checkRead_answers h s code tag w
  simp only at read
  have record : ((s.checkRead h).1.answers code tag w).listRecord h = (s.checkRead h).1.listRecord h :=
    listRecord_of_sight rfl
  simp only [Reading.list, read, record]

theorem listed_answers (code tag : Byte) (w : Work) (hs : List Nat) :
    ∀ (s : State) (claims : List Task) (bytes : List Byte),
    hs.foldl Reading.list ⟨s.answers code tag w, claims, bytes⟩ =
      { hs.foldl Reading.list ⟨s, claims, bytes⟩ with
        state := (hs.foldl Reading.list ⟨s, claims, bytes⟩).state.answers code tag w } := by
  induction hs with
  | nil => exact fun _ _ _ => rfl
  | cons h hs ih => exact fun s claims bytes => by rw [List.foldl_cons, list_answers, ih, List.foldl_cons]

theorem listAxis_answers (a : AxisId) (cursor : Nat × Nat) : PortBlindWith (fun s => s.listAxis a cursor) := by
  intro s code tag w
  simp only [State.listAxis, order_answers, key_answers, listed_answers]
  rfl

/-- What the reads of a listing leave, one entry after the other (R25, R160). -/
structure Listed (hs : List Nat) (acc r : Reading) : Prop where
  bytes : r.bytes = acc.bytes ++ (hs.map r.state.listRecord).flatten
  unread : ∀ k, k ∉ hs → r.state.sight k = acc.state.sight k
  passed : ∀ k, (acc.state.slot k).failsCheck = false → r.state.slot k = acc.state.slot k
  fenced : ∀ k ∈ hs, (acc.state.slot k).failsCheck = true → (r.state.slot k).lifecycle = .fenced
  still : r.state.still = acc.state.still
  claims : NoHandings acc.claims → NoHandings r.claims

theorem toFence_of_failsCheck {v : Slot} (fails : v.failsCheck = true) : v.toFence ≠ none := by
  cases v with
  | staged e ok => nofun
  | live e ok r => nofun
  | free => cases fails
  | disabled => cases fails
  | fenced e ok log => cases fails
  | unread e ok log => cases fails

theorem checkRead_fences {s : State} {h : Nat} (fails : (s.slot h).failsCheck = true) :
    ((s.checkRead h).1.slot h).lifecycle = .fenced := by
  rw [checkRead_of_fails fails]
  unfold State.beginFence
  split
  · rw [fenceSlot_slot, if_pos rfl]; rfl
  · next none_ => exact absurd none_ (toFence_of_failsCheck fails)

theorem checkRead_passed {s : State} (h : Nat) {k : Nat} (passes : (s.slot k).failsCheck = false) :
    (s.checkRead h).1.slot k = s.slot k := by
  by_cases same : h = k
  · rw [same, checkRead_of_passes passes]
  · exact ((sight_eq_iff _ _ k).1 (checkRead_sight_ne s same)).1

/-- The reads of distinct entries: each record shows its entry as all the reads leave it. -/
theorem listed {hs : List Nat} (distinct : hs.Nodup) : ∀ acc : Reading, Listed hs acc (hs.foldl Reading.list acc) := by
  induction hs with
  | nil => exact fun acc => ⟨by simp, fun _ _ => rfl, fun _ _ => rfl, nofun, rfl, id⟩
  | cons h hs ih =>
    obtain ⟨fresh, distinct⟩ := List.nodup_cons.1 distinct
    intro acc
    have rest := ih distinct (acc.list h)
    rw [List.foldl_cons]
    have first : (acc.list h).state = (acc.state.checkRead h).1 := rfl
    refine ⟨?_, fun k unread => ?_, fun k passes => ?_, fun k m fails => ?_, ?_, fun none_ => rest.claims ?_⟩
    · rw [rest.bytes, List.map_cons, List.flatten_cons, ← List.append_assoc,
        listRecord_of_sight (rest.unread h fresh)]
      rfl
    · obtain ⟨ne, unread⟩ := List.ne_and_not_mem_of_not_mem_cons unread
      exact (rest.unread k unread).trans (checkRead_sight_ne acc.state ne.symm)
    · have kept : (acc.list h).state.slot k = acc.state.slot k := checkRead_passed h passes
      rw [rest.passed k (by rw [kept]; exact passes), kept]
    · by_cases same : k = h
      · subst same
        rw [((sight_eq_iff _ _ k).1 (rest.unread k fresh)).1]
        exact checkRead_fences fails
      · refine rest.fenced k ((List.mem_cons.1 m).resolve_left same) ?_
        rw [first, ((sight_eq_iff _ _ k).1 (checkRead_sight_ne acc.state (Ne.symm same))).1]
        exact fails
    · exact rest.still.trans (checkRead_still acc.state h)
    · intro t m
      rcases List.mem_append.1 m with m | m
      · exact none_ t m
      · exact checkRead_noHandings acc.state h t m

/-- A listing of entries whose check values are consistent only reads (R158). -/
theorem listed_of_passes {s : State} {hs : List Nat} (passes : ∀ k ∈ hs, (s.slot k).failsCheck = false) :
    ∀ bytes, hs.foldl Reading.list ⟨s, [], bytes⟩ = ⟨s, [], bytes ++ (hs.map s.listRecord).flatten⟩ := by
  induction hs with
  | nil => exact fun bytes => by simp
  | cons h hs ih =>
    intro bytes
    have first : Reading.list ⟨s, [], bytes⟩ h = ⟨s, [], bytes ++ s.listRecord h⟩ := by
      simp [Reading.list, checkRead_of_passes (passes h List.mem_cons_self)]
    rw [List.foldl_cons, first, ih (fun k m => passes k (List.mem_cons_of_mem h m))]
    simp

/-! ### LIST_AXIS -/

/-- The bytes of LIST_AXIS. -/
theorem listAxisBlock_bytes (a : AxisId) {point h : Nat} (pointFits : point < 65536) (below : h < 512) (s : State) :
    listAxisBlock ([byteOf a] ++ bytesOf 2 point ++ bytesOf 2 h) s =
      if (s.axis a).modulus ≤ point then (s, bare .badValue)
      else if (s.axis a).state = .off then (s, replied .done (listHeader 0 none))
      else s.listAxis a (point, h) := by
  have axis : natAt ([byteOf a] ++ bytesOf 2 point ++ bytesOf 2 h) 0 1 = (byteOf a).toNat :=
    natAt_byte_append [] (bytesOf 2 point ++ bytesOf 2 h) 0 (byteOf a) rfl
  have at_ : natAt ([byteOf a] ++ bytesOf 2 point ++ bytesOf 2 h) 1 2 = point :=
    natAt_bytesOf_append [byteOf a] (bytesOf 2 h) 1 2 point rfl (by omega)
  have handle : natAt ([byteOf a] ++ bytesOf 2 point ++ bytesOf 2 h) 3 2 = h := by
    have last := natAt_bytesOf_append ([byteOf a] ++ bytesOf 2 point) [] 3 2 h rfl (by omega)
    rwa [List.append_nil] at last
  simp only [listAxisBlock, axis, at_, handle, axisOf_byteOf, handleOf, Config.slotCount, below, if_true]

/-- The entries of an axis from a cursor on (R24). -/
def State.selected (s : State) (a : AxisId) (cursor : Nat × Nat) : List Nat :=
  (s.order a).filter (fun k => decide (keyLE cursor (s.key k)))

/-- The reads of the entries that a listing returns (R25). -/
def State.listing (s : State) (a : AxisId) (cursor : Nat × Nat) : Reading :=
  ((s.selected a cursor).take 8).foldl Reading.list ⟨s, [], []⟩

/-- The header of a listing from a cursor (R24). -/
def State.listingHeader (s : State) (a : AxisId) (cursor : Nat × Nat) : List Byte :=
  listHeader ((s.selected a cursor).take 8).length (((s.selected a cursor)[8]?).map s.key)

theorem listAxis_eq (s : State) (a : AxisId) (cursor : Nat × Nat) : s.listAxis a cursor =
    ((s.listing a cursor).state, claimed (s.listing a cursor).claims
      (.reply .done (s.listingHeader a cursor ++ (s.listing a cursor).bytes))) := by
  simp only [State.listAxis, State.listing, State.listingHeader, State.selected]

theorem selected_mem {s : State} {a : AxisId} {cursor : Nat × Nat} {k : Nat}
    (shown : k ∈ (s.selected a cursor).take 8) : (s.slot k).ordered a = true :=
  (mem_order.1 (List.mem_filter.1 (List.mem_of_mem_take shown)).1).2

theorem listing_listed (s : State) (a : AxisId) (cursor : Nat × Nat) :
    Listed ((s.selected a cursor).take 8) ⟨s, [], []⟩ (s.listing a cursor) :=
  listed (((order_nodup s a).filter _).sublist (List.take_sublist 8 _)) _

theorem listing_of_passes {s : State} {a : AxisId} {cursor : Nat × Nat}
    (passes : ∀ k ∈ (s.selected a cursor).take 8, (s.slot k).failsCheck = false) :
    s.listing a cursor = ⟨s, [], (((s.selected a cursor).take 8).map s.listRecord).flatten⟩ := by
  rw [State.listing, listed_of_passes passes, List.nil_append]

/-- LIST_AXIS in a state that takes the request: the listing, and then the claims of the fences it provoked (R24,
R25). -/
theorem execListAxis_listing {s : State} {tag : Byte} (a : AxisId) {point h : Nat} (ready : s.ReadyAlone tag)
    (pointFits : point < 65536) (below : h < 512) (onAxis : point < (s.axis a).modulus) (on : (s.axis a).state ≠ .off) :
    exec (.listAxis ⟨frameRest 0x39#8 tag ([byteOf a] ++ bytesOf 2 point ++ bytesOf 2 h), .prompt⟩) s =
      .next (((s.listing a (point, h)).claims.foldl State.runClaim (s.listing a (point, h)).state).answers 0x39#8 tag
        (.ready .done (s.listingHeader a (point, h) ++ (s.listing a (point, h)).bytes) .nothing)) := by
  have answer := listAxis_eq s a (point, h)
  have stops := (State.stops_of_outside (State.outside_of_still (listing_listed s a (point, h)).still)).trans
    ready.1.2.2.2.2
  generalize s.listing a (point, h) = read at answer stops
  generalize s.listingHeader a (point, h) ++ read.bytes = payload at answer
  refine congrArg Host.Outcome.next (request_claims s read.state 0x39#8 tag _ listAxisBlock _ 5
    read.claims .done payload rfl rfl (by decide) ready.1 (.inr ready.2) stops ?_)
  rw [listAxisBlock_bytes a pointFits below, State.answers_axis, if_neg (Nat.not_le.2 onAxis), if_neg on]
  exact (listAxis_answers a (point, h)).carried answer _ _ _

/-- LIST_AXIS that answers without a listing (R24). -/
theorem execListAxis_replies {s : State} {tag : Byte} (a : AxisId) {point h : Nat} {status : Status}
    {payload : List Byte} (ready : s.ReadyAlone tag) (pointFits : point < 65536) (below : h < 512)
    (replies : ∀ t : State, t.axis a = s.axis a →
      (if (t.axis a).modulus ≤ point then (t, bare .badValue)
        else if (t.axis a).state = .off then (t, replied .done (listHeader 0 none))
        else t.listAxis a (point, h)) = (t, .ready status payload .nothing)) :
    exec (.listAxis ⟨frameRest 0x39#8 tag ([byteOf a] ++ bytesOf 2 point ++ bytesOf 2 h), .prompt⟩) s =
      .next (s.answers 0x39#8 tag (.ready status payload .nothing)) := by
  refine congrArg Host.Outcome.next (request_replies s 0x39#8 tag _ listAxisBlock _ 5 status payload .nothing rfl
    rfl (by decide) ready.1 (.inr ready.2) ?_)
  rw [listAxisBlock_bytes a pointFits below]
  exact replies _ rfl

/-- The reads of a listing and the claims after them: what the listing answers, and what they leave (R25, R160). -/
theorem listing_leaves (s : State) (a : AxisId) (cursor : Nat × Nat) {t : State}
    (is : t = (s.listing a cursor).claims.foldl State.runClaim (s.listing a cursor).state) :
    (s.listing a cursor).bytes = (((s.selected a cursor).take 8).map t.listRecord).flatten
      ∧ t.axes = s.axes
      ∧ (∀ k, k ∉ (s.selected a cursor).take 8 ∨ (s.slot k).failsCheck = false → t.slot k = s.slot k)
      ∧ ∀ k ∈ (s.selected a cursor).take 8, (s.slot k).failsCheck = true → (t.slot k).lifecycle = .fenced := by
  have read := listing_listed s a cursor
  have sight (k : Nat) : t.sight k = (s.listing a cursor).state.sight k := by
    rw [is]; exact runClaims_sight (read.claims nofun) _ k
  have slots (k : Nat) : t.slot k = (s.listing a cursor).state.slot k := ((sight_eq_iff _ _ k).1 (sight k)).1
  refine ⟨?_, ?_, fun k kept => ?_, fun k m fails => ?_⟩
  · rw [read.bytes, List.nil_append]
    exact congrArg List.flatten (List.map_congr_left fun k _ => (listRecord_of_sight (sight k)).symm)
  · have still := read.still
    simp only [State.still, Prod.mk.injEq] at still
    obtain ⟨-, -, -, -, -, -, -, axes, -⟩ := still
    exact ((sight_eq_iff _ _ 0).1 (sight 0)).2.1.trans axes
  · rw [slots]
    rcases kept with unread | passes
    · exact ((sight_eq_iff _ _ k).1 (read.unread k unread)).1
    · exact read.passed k passes
  · rw [slots]; exact read.fenced k m fails

end Sys2Proof.Machine

open Sys2Proof Sys2Proof.Machine

/-- Settles O44: the order is the sorted filter of the table, a listing reads distinct entries of it (`listed`), and the
claims of the fences it provokes change no record (`listing_leaves`). -/
theorem listAxisFollowsTheOrder : Obligations.ListAxisFollowsTheOrder := by
  unfold Obligations.ListAxisFollowsTheOrder
  intro s tag a point h ready pointFits below list selected shown header record
  have records : ∀ t k, (t.slot k).lifecycle = .live ∨ (t.slot k).lifecycle = .fenced →
      record t k = t.listRecord k := by
    intro t k inOrder
    have out (e : Entry) : ((e.output.bind fun o => pure o.val).map (fun o => byteOf o)).getD 0xFF#8
        = outputByte e.output := by cases e.output <;> rfl
    simp only [record, Option.bind_eq_bind, out, State.listRecord, State.itemOf]
    generalize t.slot k = v at *
    cases v with
    | live e ok r => rfl
    | fenced e ok log => rfl
    | free => simp [Slot.lifecycle] at inOrder
    | disabled => simp [Slot.lifecycle] at inOrder
    | staged e ok => simp [Slot.lifecycle] at inOrder
    | unread e ok log => simp [Slot.lifecycle] at inOrder
  have inOrder : ∀ k ∈ shown, (s.slot k).lifecycle = .live ∨ (s.slot k).lifecycle = .fenced := by
    intro k m
    have ordered : (s.slot k).ordered a = true := selected_mem (cursor := (point, h)) m
    cases slot : s.slot k <;> rw [slot] at ordered <;> simp [Slot.ordered, Slot.lifecycle] at ordered ⊢
  have headers : header = s.listingHeader a (point, h) := by
    show _ = listHeader shown.length (selected[8]?.map s.key)
    simp only [header]
    cases more : selected[8]? with
    | none => simp [listHeader, bytesOf, boolByte]
    | some k =>
      have long : 8 < selected.length := (List.getElem?_eq_some_iff.1 more).1
      have eight : shown.length = 8 := by rw [List.length_take]; omega
      rw [eight]
      rfl
  refine ⟨?_, fun k => mem_order, fun offAxis => ?_, fun onAxis off => ?_, fun onAxis on passes => ?_, fun k m => ?_,
    fun onAxis on => ?_⟩
  · exact (order_ascends s a).and (order_nodup s a)
  · exact execListAxis_replies a ready pointFits below fun t same => by rw [same, if_pos offAxis]
  · exact execListAxis_replies a ready pointFits below fun t same => by
      rw [same, if_neg (Nat.not_le.2 onAxis), if_pos off]; rfl
  · have ran := execListAxis_listing a ready pointFits below onAxis on
    have read : s.listing a (point, h) = ⟨s, [], (shown.map s.listRecord).flatten⟩ :=
      listing_of_passes passes
    rw [read] at ran
    rw [headers, List.map_congr_left fun k m => records s k (inOrder k m)]
    generalize (shown.map s.listRecord).flatten = listedBytes at *
    generalize s.listingHeader a (point, h) = head at *
    exact ran
  · exact (congrArg List.length (records s k (inOrder k m))).trans (listRecord_length s k)
  · obtain ⟨bytes, axes, kept, fenced⟩ := listing_leaves s a (point, h) rfl
    have ran := execListAxis_listing a ready pointFits below onAxis on
    generalize (s.listing a (point, h)).claims.foldl State.runClaim (s.listing a (point, h)).state = u at *
    refine ⟨_, ran, axes, ?_, kept, fenced⟩
    have left : ∀ k ∈ shown, (u.slot k).lifecycle = .live ∨ (u.slot k).lifecycle = .fenced := fun k m => by
      cases passes : (s.slot k).failsCheck with
      | false => rw [kept k (.inr passes)]; exact inOrder k m
      | true => exact .inr (fenced k m passes)
    rw [headers, bytes]
    set t := u.answers 0x39#8 tag (.ready .done (s.listingHeader a (point, h)
      ++ (((s.selected a (point, h)).take 8).map u.listRecord).flatten) .nothing)
    have same : shown.map (record t) = shown.map u.listRecord :=
      List.map_congr_left fun k m => (records t k (left k m)).trans (listRecord_of_sight rfl)
    rw [same]
    rfl
end

section
/-! SUPPORT. The whole work of a channel neither reads nor writes the port record, but for the outcome of a HALT_AXIS
that waits for it: so a close within a request ends its channel's work the same way behind every port record. -/

namespace Sys2Proof.Machine

/-! ### The work on one entry -/

theorem invertOnce_answers (a : AxisId) (o : OutId) : PortBlind (fun s => s.invertOnce a o) :=
  PortBlind.ite (c := fun s => o ∈ (s.channel a).inverted) (fun _ _ _ _ => Iff.rfl) (fun _ _ _ _ => rfl)
    (fun _ _ _ _ => rfl)

theorem crossFire_answers (a : AxisId) (h : Nat) (e : Entry) (r : Run) (dir : FireDir) :
    PortBlind (fun s => s.crossFire a h e r dir) := by
  unfold State.crossFire
  cases e.action with
  | window o off => exact fun _ _ _ _ => rfl
  | pulse o d q =>
    exact PortBlind.ite (c := fun _ => r.activity = .idle) (fun _ _ _ _ => Iff.rfl)
      (activate_answers a h e dir (some d))
      (fire_answers a h dir _)
  | toggle o q => exact PortBlind.then (invertOnce_answers a o) (fire_answers a h dir .idle)
  | mark q => exact fire_answers a h dir .idle

theorem cross_answers (a : AxisId) (h : Nat) (dir : FireDir) : PortBlind (fun s => s.cross a h dir) :=
  judge_answers a h (act := fun s e r =>
    if (e.qualifier?.any (fun q : Qualifier => q.admits dir)) ∧ r.spent = false then s.crossFire a h e r dir else s)
    fun e r =>
      PortBlind.ite (c := fun _ => (e.qualifier?.any (fun q : Qualifier => q.admits dir)) ∧ r.spent = false)
        (fun _ _ _ _ => Iff.rfl) (crossFire_answers a h e r dir) (fun _ _ _ _ => rfl)

theorem boundary_answers (a : AxisId) (h point : Nat) (dir : FireDir) : PortBlind (fun s => s.boundary a h point dir) :=
  judge_answers a h (act := fun s e r =>
    match e.action with
    | .window _ _ =>
      if s.enters e point dir then
        if r.activity = .idle ∧ r.spent = false then s.activate a h e dir none else s
      else s.endActivity h
    | _ => s) fun e r => by
      cases e.action with
      | window o off =>
        exact PortBlind.ite (c := fun s => s.enters e point dir = true) (fun _ _ _ _ => Iff.rfl)
          (PortBlind.ite (c := fun _ => r.activity = .idle ∧ r.spent = false) (fun _ _ _ _ => Iff.rfl)
            (activate_answers a h e dir none) (fun _ _ _ _ => rfl)) (endActivity_answers h)
      | _ => exact fun _ _ _ _ => rfl

theorem runEntry_answers (a : AxisId) (t : Task) : PortBlind (fun s => s.runEntry a t) := by
  unfold State.runEntry
  split
  · exact cross_answers a _ _
  · exact boundary_answers a _ _ _
  · exact jumpDrop_answers a _
  · exact settle_answers a _
  · exact jumpSettle_answers a _
  · exact runClaim_answers _

theorem takeEntries_answers (a : AxisId) (ts : List Task) : PortBlind (fun s => s.takeEntries a ts) :=
  PortBlind.foldl (fun t => takeVia_answers (runEntry_answers a t) a) ts

/-! ### The parts of a piece of work -/

theorem crossings_answers (a : AxisId) (point : Nat) (dir : FireDir) : PortBlind (fun s => s.crossings a point dir) :=
  fun s code tag w => takeEntries_answers a
    ((s.liveInOrder a (fun e => !e.isWindow && s.effOn e == point)).map (fun h => Task.cross h dir))
    (s.setChannel a { s.channel a with inverted := [] }) code tag w

theorem boundaries_answers (a : AxisId) (point : Nat) (dir : FireDir) : PortBlind (fun s => s.boundaries a point dir) :=
  fun s code tag w => takeEntries_answers a
    ((s.liveInOrder a (fun e => e.isWindow && (s.effOn e == point || s.effOff e == some point))).map
      (fun h => Task.boundary h point dir))
    (s.setChannel a { s.channel a with inverted := [] }) code tag w

theorem advance_answers (a : AxisId) : PortBlind (fun s => s.advance a) :=
  PortBlind.ite (c := fun s => (s.axis a).stepping ∧ (s.axis a).backlog ≠ 0) (fun _ _ _ _ => Iff.rfl)
    (fun _ _ _ _ => rfl) (fun _ _ _ _ => rfl)

theorem takeHandings_answers (h : Nat) : PortBlind (fun s => s.takeHandings h) :=
  PortBlind.foldl (takeHanding_answers h) axisIds

theorem applyItem_answers (i : Item) : PortBlind (fun s => s.applyItem i) := by
  intro s code tag w
  cases i with
  | place h =>
    have taken := takeHandings_answers h s code tag w
    simp only at taken
    simp only [State.applyItem, State.applyPlace, State.answers_slot, taken]
    cases s.slot h <;> rfl
  | alter h v =>
    have ended := endActivity_answers h s code tag w
    simp only at ended
    simp only [State.applyItem, State.applyAlter, State.answers_slot, ended]
    cases s.slot h <;> rfl
  | retire h =>
    have ended := endActivity_answers h s code tag w
    simp only at ended
    simp only [State.applyItem, State.applyRetire, State.answers_slot, ended]
    cases s.slot h <;> rfl
  | setLead o lead =>
    have ended := PortBlind.foldl (f := State.endActivity) endActivity_answers (s.liveOn o) s code tag w
    have same : (s.answers code tag w).liveOn o = s.liveOn o := rfl
    simp only [State.applyItem, State.applyLead, same] at ended ⊢
    rw [ended]
    generalize (s.liveOn o).foldl State.endActivity s = t
    rfl

theorem applyNext_answers (a : AxisId) : PortBlind (fun s => s.applyNext a) := by
  intro s code tag w
  simp only [State.applyNext, State.answers_list]
  cases (s.list a).items with
  | nil => rfl
  | cons i more =>
    simp only [show (s.answers code tag w).itemFails i = s.itemFails i from rfl]
    split
    · cases i.handle? with
      | none => rfl
      | some h =>
        exact congrArg (fun t : State => t.setList a { t.list a with items := more })
          (fenceFrom_answers a h s code tag w)
    · exact applyItem_answers i (s.setList a { s.list a with items := more }) code tag w

theorem endApplication_answers (a : AxisId) (announced : Bool) : PortBlind (fun s => s.endApplication a announced) := by
  intro s code tag w
  cases announced <;> rfl

theorem applyClosed_answers (a : AxisId) (announced : Bool) : PortBlind (fun s => s.applyClosed a announced) := by
  intro s code tag w
  have items := PortBlind.foldl (f := fun (t : State) (_ : Item) => if t.busy a then t else t.applyNext a)
    (fun _ => PortBlind.ite (c := fun t => t.busy a = true) (fun _ _ _ _ => Iff.rfl) (fun _ _ _ _ => rfl)
      (applyNext_answers a)) (s.list a).items s code tag w
  simp only at items
  simp only [State.applyClosed, State.answers_list, items]
  split
  · exact PortBlind.ite (c := fun t => t.busy a = true) (f := fun t => t.defer a (.application announced))
      (fun _ _ _ _ => Iff.rfl) (fun _ _ _ _ => rfl) (endApplication_answers a announced) _ code tag w
  · rfl

theorem dropReference_answers (a : AxisId) : PortBlind (fun s => s.dropReference a) :=
  PortBlind.ite (c := fun s => (s.axis a).source = .encoder) (fun _ _ _ _ => Iff.rfl)
    (fun s => silenceAxis_answers a (s.setAxis a { s.axis a with referenced := false })) (fun _ _ _ _ => rfl)

/-! ### The work that can give HALT_AXIS its outcome -/

/-- An operation that commutes with the acceptance of a request whose work is `w`. -/
def BlindTo (w : Work) (f : State → State) : Prop :=
  ∀ s code tag, f (s.answers code tag w) = (f s).answers code tag w

theorem PortBlind.blindTo {f : State → State} (blind : PortBlind f) (w : Work) : BlindTo w f :=
  fun s code tag => blind s code tag w

theorem BlindTo.then {w : Work} {f g : State → State} (hf : BlindTo w f) (hg : BlindTo w g) :
    BlindTo w (fun s => g (f s)) :=
  fun s code tag => (congrArg g (hf s code tag)).trans (hg (f s) code tag)

theorem BlindTo.foldl {w : Work} {α : Type} {f : State → α → State} (h : ∀ x, BlindTo w (fun s => f s x))
    (xs : List α) :
    BlindTo w (fun s => xs.foldl f s) := by
  induction xs with
  | nil => exact fun _ _ _ => rfl
  | cons x xs ih => exact BlindTo.then (h x) ih

theorem BlindTo.ite {w : Work} {f g : State → State} {c : State → Prop} [∀ s, Decidable (c s)]
    (same : ∀ s code tag, c (s.answers code tag w) ↔ c s) (hf : BlindTo w f) (hg : BlindTo w g) :
    BlindTo w (fun s => if c s then f s else g s) := by
  intro s code tag
  by_cases h : c s
  · simp only [if_pos h, if_pos ((same s code tag).2 h)]; exact hf s code tag
  · simp only [if_neg h, if_neg (fun k => h ((same s code tag).1 k))]; exact hg s code tag

theorem takeVia_blindTo {w : Work} {run : State → Task → State} {t : Task} (blind : BlindTo w (fun s => run s t))
    (a : AxisId) : BlindTo w (fun s => s.takeVia run a t) :=
  BlindTo.ite (c := fun s => (s.busy a || t.stop?.any (fun p => s.stops.contains p)) = true)
    (fun _ _ _ => Iff.rfl) (fun _ _ _ => rfl) blind

section
variable {w : Work} (a : AxisId) (noHalt : w ≠ .halting a)
include noHalt

/-- An axis that becomes HALTED gives an outcome to a HALT_AXIS alone (R39). -/
theorem haltReached_blindTo : BlindTo w (fun s => s.haltReached a) := by
  intro s code tag
  have other : (s.answers code tag w).port.state.work? ≠ some (.halting a) := fun is => noHalt (Option.some.inj is)
  simp only [State.haltReached, if_neg other]
  split <;> rfl

theorem runPart_blindTo (t : Task) : BlindTo w (fun s => s.runPart a t) := by
  unfold State.runPart
  split
  · exact (applyClosed_answers a _).blindTo w
  · exact (releaseAxis_answers a).blindTo w
  · exact (advance_answers a).blindTo w
  · exact (crossings_answers a _ _).blindTo w
  · exact (boundaries_answers a _ _).blindTo w
  · exact (settleApplied_answers a _).blindTo w
  · exact (silenceAxis_answers a).blindTo w
  · exact haltReached_blindTo a noHalt
  · exact (runEntry_answers a _).blindTo w

theorem takeParts_blindTo (ts : List Task) : BlindTo w (fun s => s.takeParts a ts) :=
  BlindTo.foldl (fun t => takeVia_blindTo (runPart_blindTo a noHalt t) a) ts

theorem haltIfDone_blindTo : BlindTo w (fun s => s.haltIfDone a) :=
  BlindTo.ite (c := fun s => (s.axis a).state = .halting ∧ (s.axis a).backlog = 0) (fun _ _ _ => Iff.rfl)
    (fun s code tag => by
      have dropped := dropReference_answers a (s.setAxis a { s.axis a with state := .halted }) code tag w
      exact (congrArg (fun t : State => t.takeParts a
        [.application true, .settleApplied (s.list a).toApply, .release, .haltReached]) dropped).trans
        (takeParts_blindTo a noHalt _ _ code tag)) (fun _ _ _ => rfl)

theorem run_blindTo (t : Task) : BlindTo w (fun s => s.run a t) := by
  unfold State.run
  split
  · exact haltIfDone_blindTo a noHalt
  · exact runPart_blindTo a noHalt _

theorem take_blindTo (ts : List Task) : BlindTo w (fun s => s.take a ts) :=
  BlindTo.foldl (fun t => takeVia_blindTo (run_blindTo a noHalt t) a) ts

/-- A channel ends its piece of work the same way behind every port record (R57). -/
theorem finish_blindTo : BlindTo w (fun s => s.finish a) := by
  intro s code tag
  have taken := take_blindTo a noHalt (s.channel a).rest
    (({ s with stops := [] } : State).setChannel a { s.channel a with rest := [] }) code tag
  exact congrArg (fun t : State => { t with stops := s.stops }) taken

end

end Sys2Proof.Machine
end

section
/-! SUPPORT. A close that a request carries out at once, and PLACE. -/

namespace Sys2Proof.Machine

/-! ### A close on a HALTED or FAULTED axis, whatever its channel is doing -/

theorem finish_free {a : AxisId} {s : State} (now : s.stops = []) : Free a (s.finish a) := by
  have begun : Free a (s.setChannel a { s.channel a with rest := [] }) :=
    (free_iff a _).2 ⟨now, by rw [State.setChannel_channel_self]⟩
  have resumed : Free a (s.resume a) := (take_free _ (s.channel a).rest begun).2
  have same : s.finish a = s.resume a := stopping_nil s (fun t => t.resume a) now ((free_iff a _).1 resumed).1
  rw [same]
  exact resumed

/-- The list of an axis, just closed by a request, applied by a channel that has ended its work (R117). -/
def State.appliedClose (s : State) (a : AxisId) : State := (s.finish a).applyClosed a false

/-- The list answer after the application of `items` by a request (R115). -/
def State.appliedAnswer (s : State) (a : AxisId) (items : List Item) (h : Nat) : List Byte :=
  s.listAnswer a (some (items.length - items.countP s.fencedBy, items.countP s.fencedBy)) h 0#8 0

theorem appliedClose_free {a : AxisId} {s : State} (now : s.stops = []) : Free a (s.appliedClose a) :=
  applyClosed_keepsFree _ false (finish_free now)

theorem settleApplied_free {a : AxisId} {s : State} (items : List Item) (free : Free a s) :
    Free a (s.settleApplied a items) := (takeEntries_free s _ free).2

/-- A close on a HALTED or FAULTED axis: its channel ends its work and applies the list. -/
theorem closes_applies {a : AxisId} {s : State} (h : Nat) (applies : (s.axis a).appliesOnClose = true)
    (closed : (s.list a).closed = true) (now : s.stops = []) :
    s.closes a h false = (s.appliedClose a, .channel a (.closed a (s.list a).items h false) []) := by
  have parts : (s.finish a).takeParts a [.application false, .served] = s.appliedClose a :=
    (takeParts_free _ _ (finish_free now)).1
  simp only [State.closes, applies, closed, and_self, if_true, parts]

/-- The request goes on at once: the applied entries are settled, and its list answer is in (R115, R117). -/
theorem goOn_closed {a : AxisId} {s : State} (items : List Item) (h : Nat) (free : Free a s) :
    s.goOn (.channel a (.closed a items h false) []) =
      (s.settleApplied a items, replied .done (s.appliedAnswer a items h)) := by
  have same : s.takeParts a [.settleApplied items, .served] = s.settleApplied a items := by
    rw [(takeParts_free s [.settleApplied items, .served] free).1, List.foldl_cons, List.foldl_cons, List.foldl_nil]
    simp only [State.runPart, State.runEntry, State.runClaim]
  simp only [State.goOn, serving_of_free free, Bool.false_eq_true, if_false, State.proceed, State.settleClosed, same,
    State.repliesAfter, serving_of_free (settleApplied_free items free)]
  rfl

theorem closes_answers {a : AxisId} {s : State} (h : Nat) (applies : (s.axis a).appliesOnClose = true)
    (closed : (s.list a).closed = true) (now : s.stops = []) (code tag : Byte) {w : Work} (noHalt : w ≠ .halting a) :
    (s.answers code tag w).closes a h false =
      ((s.appliedClose a).answers code tag w, .channel a (.closed a (s.list a).items h false) []) := by
  have ended : (s.answers code tag w).appliedClose a = (s.appliedClose a).answers code tag w :=
    (congrArg (fun t : State => t.applyClosed a false) (finish_blindTo a noHalt s code tag)).trans
      (applyClosed_answers a false (s.finish a) code tag w)
  rw [closes_applies (s := s.answers code tag w) h applies closed now, ended]
  rfl

/-- A request that edits a list and closes it on a HALTED or FAULTED axis (R117). -/
theorem request_closes {s t : State} {a : AxisId} {h : Nat} (code tag : Byte) (args : List Byte) (block : Handler)
    (l : Lines) (n : Nat) (known : argLength code = some n) (len : args.length = n) (short : n ≤ 60)
    (ready : s.ReadyAlone tag) (applies : (t.axis a).appliesOnClose = true) (closed : (t.list a).closed = true)
    (now : t.stops = [])
    (worked : ∀ w, block args (s.answers code tag w) = (t.answers code tag w).closes a h false) :
    s.request code (frameRest code tag args) .prompt block l =
      ((t.appliedClose a).settleApplied a (t.list a).items).answers code tag
        (.ready .done ((t.appliedClose a).appliedAnswer a (t.list a).items h) .nothing) := by
  have run := request_now s code tag args [] block l n .prompt rfl known len short ready.1
  rw [List.append_nil] at run
  have still : ({ s with stops := Pace.prompt.stops } : State) = s := by
    rw [show Pace.prompt.stops = s.stops from ready.1.2.2.2.2.symm]
  have free := appliedClose_free (a := a) now
  have wentOn := goOn_closed (t.list a).items h free
  have settled := settleApplied_free (t.list a).items free
  have waiting := closes_answers h applies closed now code tag (w := .waiting args l .prompt) nofun
  generalize t.appliedClose a = u at *
  have kept : ({ u.settleApplied a (t.list a).items with stops := s.stops } : State)
      = u.settleApplied a (t.list a).items := by
    rw [ready.1.2.2.2.2, ← ((free_iff a _).1 settled).1]
  rw [run, runBlock_answers s u _ code tag _ (.channel a (.closed a (t.list a).items h false) []) _ block args .prompt
    (.inr ready.2) (by rw [still, worked]; exact waiting) wentOn, kept]

/-! ### The checks of PLACE -/

/-- The status of a PLACE that checks 3 to 10 of R107 refuse, in their order. -/
def State.placeRefusal (s : State) (e : Entry) : Option Status :=
  if (s.axis e.axis).state = .off then some .wrongState
  else if (s.list e.axis).closed then some .listSealed
  else if !s.outputFits e then some .mismatch
  else if !e.pointsFit (s.axis e.axis).modulus then some .badValue
  else if s.wouldSpan e then some .spansWrap
  else if 32 ≤ (s.list e.axis).items.length then some .listFull
  else if s.lowestFree = none then some .noSlot
  else none

/-- The list of an axis with the PLACE item of a new entry (R116). -/
def State.withPlace (s : State) (e : Entry) (h : Nat) (close : Bool) : State :=
  (s.setSlot h (.staged e true)).takeItems e.axis ((s.list e.axis).items ++ [.place h]) close

theorem place_refused {s : State} {e : Entry} {status : Status} (refused : s.placeRefusal e = some status)
    (close : Bool) : s.place e close = (s, bare status) := by
  unfold State.placeRefusal at refused
  unfold State.place
  simp only [Config.listCapacity]
  split_ifs at refused ⊢ <;> simp_all

theorem place_passed {s : State} {e : Entry} {h : Nat} (passed : s.placeRefusal e = none)
    (lowest : s.lowestFree = some h) (close : Bool) :
    s.place e close = (s.withPlace e h close).closes e.axis h false := by
  unfold State.placeRefusal at passed
  unfold State.place State.withPlace
  simp only [Config.listCapacity, lowest]
  split_ifs at passed ⊢
  simp_all

theorem withPlace_list (s : State) (e : Entry) (h : Nat) (close : Bool) : (s.withPlace e h close).list e.axis
    = ⟨(s.list e.axis).items ++ [.place h], close, (s.list e.axis).change + 1#8⟩ := by
  simp [State.withPlace, State.takeItems]

theorem lowestFree_spec {s : State} {h : Nat} (lowest : s.lowestFree = some h) :
    h < 512 ∧ (∀ k < h, s.slot k ≠ .free) ∧ s.slot h = .free := by
  unfold State.lowestFree handles at lowest
  obtain ⟨free, mem, before⟩ := List.find?_range_eq_some.1 lowest
  exact ⟨List.mem_range.1 mem, fun k lt => by simpa using before k lt, by simpa using free⟩

end Sys2Proof.Machine
end

section
/-! SUPPORT. The application of a list whose one item places an entry. -/

namespace Sys2Proof.Machine

/-! ### Writes of one slot -/

theorem Table.insert_insert (t : List (Nat × Slot)) (h : Nat) (v w : Slot) :
    Table.insert (Table.insert t h v) h w = Table.insert t h w := by
  induction t with
  | nil => simp [Table.insert]
  | cons c rest ih =>
    obtain ⟨k, x⟩ := c
    by_cases below : h < k
    · simp [Table.insert, below]
    · by_cases same : h = k
      · subst same; simp [Table.insert]
      · simp [Table.insert, below, same, ih]

theorem Table.set_set (t : List (Nat × Slot)) (h : Nat) {v w : Slot} (hv : v ≠ .free) (hw : w ≠ .free) :
    Table.set (Table.set t h v) h w = Table.set t h w := by
  simp [Table.set, hv, hw, Table.insert_insert]

/-! ### The handings that a STAGED slot discards -/

/-- A channel without a handing of `h` at the head of its work. -/
def Channel.withoutHanding (h : Nat) (c : Channel) : Channel :=
  match c.rest with
  | .hand k :: rest => if k = h then { c with rest := rest } else c
  | _ => c

theorem takeHanding_staged {s : State} {h : Nat} (staged : (s.slot h).lifecycle = .staged) (a : AxisId) :
    State.takeHanding h s a = s.setChannel a ((s.channel a).withoutHanding h) := by
  have idle (t : State) (same : t.slot h = s.slot h) : t.hand h = t := by
    unfold State.hand
    rw [same]
    cases slot : s.slot h with
    | staged e ok => rfl
    | free => rfl
    | disabled => rfl
    | live e ok r => rw [slot] at staged; cases staged
    | fenced e ok log => rw [slot] at staged; cases staged
    | unread e ok log => rw [slot] at staged; cases staged
  have stays : s.setChannel a (s.channel a) = s := State.setChannel_self s a
  unfold State.takeHanding Channel.withoutHanding
  generalize s.channel a = c at *
  obtain ⟨rest, inverted⟩ := c
  cases rest with
  | nil => exact stays.symm
  | cons t rest =>
    cases t with
    | hand k =>
      simp only
      split
      · exact idle _ rfl
      · exact stays.symm
    | _ => exact stays.symm

/-- A STAGED slot discards every handing that its channels have left waiting (R132). -/
theorem takeHandings_staged {s : State} {h : Nat} (staged : (s.slot h).lifecycle = .staged) :
    s.takeHandings h = s.withoutHandings h := by
  have each : ∀ (as : List AxisId) (t : State), (t.slot h).lifecycle = .staged →
      as.foldl (State.takeHanding h) t
        = as.foldl (fun t a => t.setChannel a ((t.channel a).withoutHanding h)) t := by
    intro as
    induction as with
    | nil => exact fun _ _ => rfl
    | cons a as ih =>
      intro t staged
      rw [List.foldl_cons, List.foldl_cons, takeHanding_staged staged]
      exact ih _ staged
  have mapped : s.withoutHandings h = { s with channels := s.channels.map (Channel.withoutHanding h) } := rfl
  have ids : axisIds = [0, 1, 2, 3] := rfl
  rw [State.takeHandings, each axisIds s staged, mapped, ids]
  have channels : ((((s.channels.set 0 (s.channels[0].withoutHanding h)).set 1 (s.channels[1].withoutHanding h)).set 2
      (s.channels[2].withoutHanding h)).set 3 (s.channels[3].withoutHanding h))
        = s.channels.map (Channel.withoutHanding h) := by
    ext i bound
    interval_cases i <;> simp
  rw [← channels]
  simp [State.setChannel, State.channel]

/-! ### The application of one PLACE item -/

/-- The next item of a list is a PLACE of a consistent entry: it leaves the list, and the entry is LIVE (R120, R121). -/
theorem applyNext_place {s : State} {a : AxisId} {e : Entry} {h : Nat} {more : List Item}
    (items : (s.list a).items = .place h :: more) (staged : s.slot h = .staged e true) :
    s.applyNext a = (((s.setList a { s.list a with items := more }).withoutHandings h).setSlot h
      (.live e true Run.fresh)) := by
  have consistent : s.itemFails (.place h) = false := by
    simp [State.itemFails, Item.handle?, staged, Slot.failsCheck]
  have slot : (s.setList a { s.list a with items := more }).slot h = .staged e true := staged
  unfold State.applyNext
  rw [items]
  simp only [consistent, Bool.false_eq_true, if_false, State.applyItem, State.applyPlace, slot]
  rw [takeHandings_staged (by rw [slot]; rfl)]

/-- The state after a list that held one PLACE item is applied, before its settle. -/
def State.withPlaced (s : State) (e : Entry) (h : Nat) : State :=
  ((s.withoutHandings h).setSlot h (.live e true Run.fresh)).setList e.axis ⟨[], false, (s.list e.axis).change + 2#8⟩

theorem withPlace_appliedClose {s : State} {e : Entry} (h : Nat) (free : Free e.axis s)
    (empty : (s.list e.axis).items = []) :
    (s.withPlace e h true).appliedClose e.axis = s.withPlaced e h := by
  have list := withPlace_list s e h true
  rw [empty, List.nil_append] at list
  have still : Free e.axis (s.withPlace e h true) := free_of_way rfl free
  have quiet : (s.withPlace e h true).finish e.axis = s.withPlace e h true := finish_quiet ((free_iff _ _).1 still).2
  have staged : (s.withPlace e h true).slot h = .staged e true := by
    simp [State.withPlace, State.takeItems]
  rw [State.appliedClose, quiet, applyClosed_free _ false (by rw [list]) still, list, List.foldl_cons, List.foldl_nil,
    applyNext_place (more := []) (by rw [list]) staged]
  have rewritten : Table.set (Table.set s.table h (.staged e true)) h (.live e true Run.fresh)
      = Table.set s.table h (.live e true Run.fresh) := Table.set_set _ _ nofun nofun
  have twice (change : Byte) : change + 1#8 + 1#8 = change + 2#8 := BitVec.add_assoc _ _ _
  simp [State.endApplication, State.withPlaced, State.withPlace, State.takeItems, State.setSlot, State.setList,
    State.withoutHandings, State.list, rewritten, twice]

theorem withPlaced_list (s : State) (e : Entry) (h : Nat) :
    (s.withPlaced e h).list e.axis = ⟨[], false, (s.list e.axis).change + 2#8⟩ := by
  simp [State.withPlaced]

theorem withPlaced_slot (s : State) (e : Entry) (h : Nat) : (s.withPlaced e h).slot h = .live e true Run.fresh := by
  simp [State.withPlaced]

/-- The settle after one PLACE item is that of its entry (R60, R125). -/
theorem withPlaced_settle (s : State) (e : Entry) {h : Nat} (below : h < 512) :
    (s.withPlaced e h).settleApplied e.axis [.place h] = (s.withPlaced e h).settleAll e.axis [h] := by
  have slot := withPlaced_slot s e h
  generalize s.withPlaced e h = t at *
  have named (x : Entry) (k : Nat) : x.appliedBy [.place h] k = (h == k) := by simp [Entry.appliedBy]
  have only : (t.order e.axis).filter (fun k => (t.slot k).entry?.any (fun x => x.appliedBy [.place h] k)) = [h] := by
    refine List.perm_singleton.1 ((List.perm_ext_iff_of_nodup ((order_nodup t e.axis).filter _)
      (List.nodup_singleton h)).2 fun k => ?_)
    rw [List.mem_filter, mem_order, List.mem_singleton]
    constructor
    · rintro ⟨-, applied⟩
      obtain ⟨x, -, is⟩ := (Option.any_eq_true _ _).1 applied
      rw [named, beq_iff_eq] at is
      exact is.symm
    · rintro rfl
      simp [below, slot, Slot.ordered, Slot.entry?, named]
  rw [State.settleApplied, only]

theorem withPlaced_answer (s : State) (e : Entry) (h : Nat) : (s.withPlaced e h).appliedAnswer e.axis [.place h] h =
    [byteOf e.axis, 0#8, 0#8, (s.list e.axis).change + 2#8, 1#8, 1#8, 0#8] ++ bytesOf 2 h ++ [0#8, 0#8] := by
  have kept : [Item.place h].countP (s.withPlaced e h).fencedBy = 0 := by
    simp [State.fencedBy, Item.handle?, withPlaced_slot, Slot.lifecycle]
  simp [State.appliedAnswer, State.listAnswer, kept, withPlaced_list, boolByte]
  exact ⟨rfl, rfl, rfl⟩

end Sys2Proof.Machine
end

section
/-! SUPPORT. PLACE and CLOSE_LIST in a state that takes the request. -/

namespace Sys2Proof.Machine

theorem placeBlock_args {e : Entry} (range : e.InRange) (close : Bool) (s : State) :
    placeBlock (placeArgs e close) s = s.place e close := by
  simp only [placeBlock, decodePlace_placeArgs e close range]

theorem placeArgs_length (e : Entry) (close : Bool) : (placeArgs e close).length = 15 := by
  simp [placeArgs, bytesOf_length]

/-- PLACE refused (R107). -/
theorem execPlace_refused {s : State} {tag : Byte} {e : Entry} {status : Status} (close : Bool)
    (ready : s.ReadyAlone tag) (range : e.InRange) (refused : s.placeRefusal e = some status) :
    exec (.place ⟨frameRest 0x30#8 tag (placeArgs e close), .prompt⟩) s =
      .next (s.answers 0x30#8 tag (bare status)) := by
  refine congrArg Host.Outcome.next (request_replies s 0x30#8 tag _ placeBlock _ 15 status [] .nothing rfl
    (placeArgs_length e close) (by decide) ready.1 (.inr ready.2) ?_)
  rw [placeBlock_args range]
  exact place_refused (s := s.answers 0x30#8 tag _) refused close

theorem place_answers {s : State} {e : Entry} {h : Nat} (close : Bool) (passed : s.placeRefusal e = none)
    (lowest : s.lowestFree = some h) (code tag : Byte) (w : Work) :
    (s.answers code tag w).place e close = ((s.withPlace e h close).answers code tag w).closes e.axis h false :=
  place_passed (s := s.answers code tag w) passed lowest close

/-- PLACE that leaves its list waiting (R108, R116). -/
theorem execPlace_waits {s : State} {tag : Byte} {e : Entry} {h : Nat} (close : Bool) (ready : s.ReadyAlone tag)
    (range : e.InRange) (passed : s.placeRefusal e = none) (lowest : s.lowestFree = some h)
    (waits : close = false ∨ (s.axis e.axis).appliesOnClose = false) :
    exec (.place ⟨frameRest 0x30#8 tag (placeArgs e close), .prompt⟩) s =
      .next ((s.withPlace e h close).answers 0x30#8 tag
        (.ready .done ((s.withPlace e h close).listAnswer e.axis none h 0#8 0) .nothing)) := by
  have list := withPlace_list s e h close
  have axis : (s.withPlace e h close).axis e.axis = s.axis e.axis := rfl
  have stays : ¬ ((s.withPlace e h close).axis e.axis).appliesOnClose = true
      ∨ ¬ ((s.withPlace e h close).list e.axis).closed = true := by
    rw [axis, list]
    rcases waits with rfl | waits
    · exact .inr nofun
    · exact .inl (by rw [waits]; nofun)
  refine congrArg Host.Outcome.next (request_answers s (s.withPlace e h close) 0x30#8 tag _ placeBlock _ 15 .done
    _ .nothing rfl (placeArgs_length e close) (by decide) ready.1 (.inr ready.2) ready.1.2.2.2.2 ?_)
  rw [placeBlock_args range, place_answers close passed lowest, State.closes]
  exact if_neg fun both => stays.elim (fun no => no both.1) (fun no => no both.2)

/-- PLACE that closes a list which is applied at once (R117). -/
theorem execPlace_applies {s : State} {tag : Byte} {e : Entry} {h : Nat} (ready : s.ReadyAlone tag)
    (range : e.InRange) (passed : s.placeRefusal e = none) (lowest : s.lowestFree = some h)
    (applies : (s.axis e.axis).appliesOnClose = true) :
    exec (.place ⟨frameRest 0x30#8 tag (placeArgs e true), .prompt⟩) s =
      .next ((((s.withPlace e h true).appliedClose e.axis).settleApplied e.axis
          ((s.list e.axis).items ++ [.place h])).answers 0x30#8 tag
        (.ready .done (((s.withPlace e h true).appliedClose e.axis).appliedAnswer e.axis
          ((s.list e.axis).items ++ [.place h]) h) .nothing)) := by
  have list := withPlace_list s e h true
  have ran := request_closes (s := s) (t := s.withPlace e h true) (a := e.axis) (h := h) 0x30#8 tag (placeArgs e true)
    placeBlock ⟨false, false, false⟩ 15 rfl (placeArgs_length e true) (by decide) ready applies (by rw [list])
    ready.1.2.2.2.2 (fun w => by rw [placeBlock_args range, place_answers true passed lowest])
  rw [list] at ran
  exact congrArg Host.Outcome.next ran

/-- CLOSE_LIST of a list which is applied at once (R116, R117). -/
theorem execCloseList_applies {s : State} {tag : Byte} {a : AxisId} (ready : s.ReadyAlone tag)
    (applies : (s.axis a).appliesOnClose = true) (on : (s.axis a).state ≠ .off) (opened : (s.list a).closed = false)
    (items : (s.list a).items ≠ []) :
    exec (.closeList ⟨frameRest 0x34#8 tag [byteOf a], .prompt⟩) s =
      .next ((((s.takeItems a (s.list a).items true).appliedClose a).settleApplied a (s.list a).items).answers
        0x34#8 tag (.ready .done (((s.takeItems a (s.list a).items true).appliedClose a).appliedAnswer a
          (s.list a).items 0) .nothing)) := by
  have list : (s.takeItems a (s.list a).items true).list a = ⟨(s.list a).items, true, (s.list a).change + 1#8⟩ := by
    simp [State.takeItems, items]
  have block (t : State) (same : t.axis a = s.axis a) (sameList : t.list a = s.list a) :
      closeListBlock [byteOf a] t = (t.takeItems a (s.list a).items true).closes a 0 false := by
    have axis : natAt [byteOf a] 0 1 = (byteOf a).toNat := natAt_byte_append [] [] 0 (byteOf a) rfl
    simp only [closeListBlock, axis, axisOf_byteOf]
    simp [State.closeList, same, sameList, on, opened, items, State.finishEdit]
  have ran := request_closes (s := s) (t := s.takeItems a (s.list a).items true) (a := a) (h := 0) 0x34#8 tag [byteOf a]
    closeListBlock ⟨false, false, false⟩ 1 rfl rfl (by decide) ready applies (by rw [list]) ready.1.2.2.2.2
    (fun w => block (s.answers 0x34#8 tag w) rfl rfl)
  rw [list] at ran
  exact congrArg Host.Outcome.next ran

/-- A PLACE item joins the list of an axis, which CLOSE_LIST then closes: the list is the one that PLACE with
close-after leaves (R116). -/
theorem withPlace_of_open (s : State) (e : Entry) (h : Nat) :
    State.takeItems ((s.setSlot h (.staged e true)).setList e.axis
      ⟨(s.list e.axis).items ++ [.place h], false, (s.list e.axis).change⟩) e.axis
        ((s.list e.axis).items ++ [.place h]) true
      = s.withPlace e h true := by
  simp [State.withPlace, State.takeItems]

theorem appliedAnswer_take (s : State) (a : AxisId) (items : List Item) (h : Nat) :
    s.appliedAnswer a items h = (s.appliedAnswer a items 0).take 7 ++ bytesOf 2 h ++ [0#8, 0#8] := rfl

theorem withPlace_eq (s : State) (e : Entry) (h : Nat) (close : Bool) : s.withPlace e h close =
    (s.setSlot h (.staged e true)).setList e.axis
      ⟨(s.list e.axis).items ++ [.place h], close, (s.list e.axis).change + 1#8⟩ := by
  have holds : ((s.list e.axis).items ++ [Item.place h]).isEmpty = false := by simp
  rw [State.withPlace, State.takeItems, holds, Bool.not_false, Bool.and_true]
  rfl

theorem withPlace_answer (s : State) (e : Entry) (h : Nat) (close : Bool) :
    (s.withPlace e h close).listAnswer e.axis none h 0#8 0 =
      [byteOf e.axis, byteOf ((s.list e.axis).items.length + 1), boolByte close, (s.list e.axis).change + 1#8, 0#8, 0#8,
        0#8] ++ bytesOf 2 h ++ [0#8, 0#8] := by
  simp only [State.listAnswer, withPlace_list, List.length_append]
  rfl

theorem applies_of_stopped {x : Axis} (stopped : x.state = .halted ∨ x.state = .faulted) : x.appliesOnClose = true := by
  rcases stopped with is | is <;> rw [Axis.appliesOnClose, is] <;> rfl

theorem on_of_stopped {x : Axis} (stopped : x.state = .halted ∨ x.state = .faulted) : x.state ≠ .off := by
  rcases stopped with is | is <;> rw [is] <;> nofun

end Sys2Proof.Machine

open Sys2Proof Sys2Proof.Machine

/-- Settles O36: the refusals are the branches of `State.placeRefusal`; a list that stays open or waits is the written
one; a close that is applied at once ends the work of the channel the same way for PLACE and for CLOSE_LIST
(`request_closes`), and on a free channel it is the one item's application (`withPlace_appliedClose`). -/
theorem placeReservesTheLowestFreeSlot : Obligations.PlaceReservesTheLowestFreeSlot := by
  unfold Obligations.PlaceReservesTheLowestFreeSlot
  intro s tag e close ready range
  dsimp only
  have refused := fun status => execPlace_refused (status := status) close ready range
  have passed : ∀ h, (s.axis e.axis).state ≠ .off → (s.list e.axis).closed = false →
      (s.outputFits e = true ∧ e.pointsFit (s.axis e.axis).modulus = true ∧ s.wouldSpan e = false
        ∧ (s.list e.axis).items.length < 32) → s.lowestFree = some h → s.placeRefusal e = none := by
    rintro h on opened ⟨output, points, spans, room⟩ lowest
    simp [State.placeRefusal, on, opened, output, points, spans, Nat.not_le.2 room, lowest]
  refine ⟨fun off => ?_, fun on sealed => ?_, fun on opened output => ?_, fun on opened output points => ?_,
    fun on opened output points spans => ?_, fun on opened output points spans full => ?_,
    fun on opened ⟨output, points, spans, room⟩ none_ => ?_, fun h on opened passes lowest waits => ?_,
    fun h stopped quiet empty passes lowest closing => ?_, fun h stopped opened passes lowest closing => ?_⟩
  · exact refused .wrongState (by simp [State.placeRefusal, off])
  · exact refused .listSealed (by simp [State.placeRefusal, on, sealed])
  · exact refused .mismatch (by simp [State.placeRefusal, on, opened, output])
  · exact refused .badValue (by simp [State.placeRefusal, on, opened, output, points])
  · exact refused .spansWrap (by simp [State.placeRefusal, on, opened, output, points, spans])
  · exact refused .listFull (by simp [State.placeRefusal, on, opened, output, points, spans, full])
  · exact refused .noSlot (by
      simp [State.placeRefusal, on, opened, output, points, spans, Nat.not_le.2 room, none_])
  · obtain ⟨-, before, free⟩ := lowestFree_spec lowest
    refine ⟨before, free, ?_⟩
    have waits : close = false ∨ (s.axis e.axis).appliesOnClose = false := by
      rcases waits with still | running | halting
      · exact .inl still
      · exact .inr (by rw [Axis.appliesOnClose, running]; rfl)
      · exact .inr (by rw [Axis.appliesOnClose, halting]; rfl)
    have ran := execPlace_waits close ready range (passed h on opened passes lowest) lowest waits
    rw [withPlace_answer, withPlace_eq] at ran
    exact ran
  · have applies := applies_of_stopped stopped
    have items : (s.list e.axis).items = [] := congrArg PendingList.items empty
    have opened : (s.list e.axis).closed = false := congrArg PendingList.closed empty
    subst closing
    have ran := execPlace_applies ready range (passed h (on_of_stopped stopped) opened passes lowest) lowest applies
    have free : Free e.axis s := (free_iff e.axis s).2 ⟨ready.1.2.2.2.2, by simpa [State.busy] using quiet⟩
    rw [withPlace_appliedClose h free items, items, List.nil_append, withPlaced_answer,
      withPlaced_settle s e (lowestFree_spec lowest).1] at ran
    exact ran
  · have applies := applies_of_stopped stopped
    have on := on_of_stopped stopped
    subst closing
    have placed := execPlace_applies ready range (passed h on opened passes lowest) lowest applies
    have closed := execCloseList_applies (tag := tag) (a := e.axis) (s := (s.setSlot h (.staged e true)).setList e.axis
      ⟨(s.list e.axis).items ++ [.place h], false, (s.list e.axis).change⟩) ready applies on (by simp) (by simp)
    rw [State.setList_list_self, withPlace_of_open] at closed
    refine ⟨_, _, closed, ?_⟩
    rw [← appliedAnswer_take]
    exact placed
end

section
/-! SUPPORT. What the work of a channel makes of the axis records: its own axis takes counts, reaches HALTED and loses its
reference there; every other record stands. -/

namespace Sys2Proof.Machine

/-! ### Which work leaves every axis record -/

theorem State.axes_of_still {s t : State} (same : t.still = s.still) : t.axes = s.axes := by
  simp only [State.still, Prod.mk.injEq] at same
  exact same.2.2.2.2.2.2.2.1

@[simp] theorem endApplication_axes (s : State) (a : AxisId) (announced : Bool) :
    (s.endApplication a announced).axes = s.axes := by
  unfold State.endApplication
  simp only
  split <;> rfl

@[simp] theorem applyClosed_axes (s : State) (a : AxisId) (announced : Bool) :
    (s.applyClosed a announced).axes = s.axes := by
  have items : ∀ xs : List Item,
      (xs.foldl (fun (t : State) _ => if t.busy a then t else t.applyNext a) s).axes = s.axes :=
    fun xs => foldl_keeps State.axes _ (fun t _ => by
      split
      · rfl
      · exact State.axes_of_still (applyNext_still a t)) xs s
  unfold State.applyClosed
  split
  · simp only
    split
    · exact items _
    · exact (endApplication_axes _ _ _).trans (items _)
  · rfl

@[simp] theorem enterSafe_axes (s : State) : s.enterSafe.axes = s.axes := by
  unfold State.enterSafe; split <;> rfl

@[simp] theorem finishRelease_axes (s : State) : s.finishRelease.axes = s.axes := by
  unfold State.finishRelease; split <;> rfl

@[simp] theorem releaseAxis_axes (s : State) (a : AxisId) : (s.releaseAxis a).axes = s.axes := by
  unfold State.releaseAxis State.releaseWhere
  split
  · split
    · exact finishRelease_axes _
    · rfl
  · rfl

@[simp] theorem haltReached_axes (s : State) (a : AxisId) : (s.haltReached a).axes = s.axes := by
  unfold State.haltReached; split <;> rfl

/-- A silent end leaves every axis record but for the one that waited for it (R79). -/
theorem silenceAxis_axes (s : State) (a : AxisId) :
    (s.silenceAxis a).axes = (s.setAxis a { s.axis a with silentDue := false }).axes := by
  have ended : ((s.liveOf a).foldl State.endActivity s).axes = s.axes :=
    foldl_keeps State.axes _ (fun t h => State.axes_of_still (endActivity_still t h)) (s.liveOf a) s
  simp only [State.silenceAxis, State.setAxis_axes, State.axis, ended]

theorem axis_of_axes {s t : State} (same : t.axes = s.axes) (b : AxisId) : t.axis b = s.axis b := by
  unfold State.axis; rw [same]

theorem silenceAxis_axis (s : State) (a b : AxisId) :
    (s.silenceAxis a).axis b = if a = b then { s.axis a with silentDue := false } else s.axis b :=
  (axis_of_axes (silenceAxis_axes s a) b).trans (State.setAxis_axis s a b _)

/-! ### What a channel's work makes of its axis -/

/-- What tasks of its channel make of an axis record: the configuration, rate, revolution count and lines stand; a
HALTING axis can become HALTED; the reference is lost by that alone; only a stepped axis moves. -/
structure Axis.Worked (x y : Axis) : Prop where
  fixed : y = { x with
    state := y.state, position := y.position, referenced := y.referenced, backlog := y.backlog, silentDue := y.silentDue }
  state : y.state = x.state ∨ x.state = .halting ∧ y.state = .halted
  referenced : x.state ≠ .halting → y.referenced = x.referenced
  unmoved : x.stepping = false → y.position = x.position ∧ y.backlog = x.backlog
  due : y.silentDue = true → x.silentDue = true

theorem Axis.Worked.refl (x : Axis) : x.Worked x := ⟨rfl, .inl rfl, fun _ => rfl, fun _ => ⟨rfl, rfl⟩, id⟩

theorem Axis.Worked.trans {x y z : Axis} (first : x.Worked y) (second : y.Worked z) : x.Worked z where
  fixed := by rw [second.fixed, first.fixed]
  state := by
    rcases first.state with same | ⟨halting, halted⟩
    · rcases second.state with same' | ⟨halting, halted⟩
      · exact .inl (same'.trans same)
      · exact .inr ⟨same ▸ halting, halted⟩
    · rcases second.state with same' | ⟨halting', -⟩
      · exact .inr ⟨halting, same'.trans halted⟩
      · rw [halted] at halting'; cases halting'
  referenced still := by
    have same := first.state.resolve_right (fun h => still h.1)
    rw [second.referenced (by rwa [same]), first.referenced still]
  unmoved still := by
    have same : y.state = x.state := first.state.resolve_right (fun h => by simp [Axis.stepping, h.1] at still)
    have still' : y.stepping = false := by rw [Axis.stepping, same]; exact still
    obtain ⟨position, backlog⟩ := first.unmoved still
    obtain ⟨position', backlog'⟩ := second.unmoved still'
    exact ⟨position'.trans position, backlog'.trans backlog⟩
  due waits := first.due (second.due waits)

/-- Between two states the channel of `a` has worked: its axis record is as tasks make it, and the others stand. -/
structure State.Worked (a : AxisId) (s t : State) : Prop where
  own : (s.axis a).Worked (t.axis a)
  others : ∀ b, b ≠ a → t.axis b = s.axis b

theorem State.Worked.of_axes {a : AxisId} {s t : State} (same : t.axes = s.axes) : State.Worked a s t where
  own := by rw [axis_of_axes same]; exact .refl _
  others b _ := axis_of_axes same b

theorem State.Worked.trans {a : AxisId} {s t u : State} (first : State.Worked a s t) (second : State.Worked a t u) :
    State.Worked a s u where
  own := first.own.trans second.own
  others b ne := (second.others b ne).trans (first.others b ne)

theorem State.Worked.setAxis {a : AxisId} {s : State} {y : Axis} (own : (s.axis a).Worked y) :
    State.Worked a s (s.setAxis a y) where
  own := by rw [State.setAxis_axis_self]; exact own
  others b ne := by rw [State.setAxis_axis, if_neg (Ne.symm ne)]

theorem State.Worked.foldl {α : Type} {a : AxisId} {f : State → α → State} (each : ∀ s x, State.Worked a s (f s x))
    (xs : List α) (s : State) : State.Worked a s (xs.foldl f s) := by
  induction xs generalizing s with
  | nil => exact .of_axes rfl
  | cons x xs ih => exact (each s x).trans (ih (f s x))

theorem takeVia_worked {run : State → Task → State} {a : AxisId} (each : ∀ s t, State.Worked a s (run s t)) (s : State)
    (t : Task) : State.Worked a s (s.takeVia run a t) := by
  unfold State.takeVia; split
  · exact .of_axes rfl
  · exact each s t

theorem silenceAxis_worked (a : AxisId) (s : State) : State.Worked a s (s.silenceAxis a) where
  own := by
    rw [silenceAxis_axis, if_pos rfl]
    exact ⟨rfl, .inl rfl, fun _ => rfl, fun _ => ⟨rfl, rfl⟩, nofun⟩
  others b ne := by rw [silenceAxis_axis, if_neg (Ne.symm ne)]

theorem advance_worked (a : AxisId) (s : State) : State.Worked a s (s.advance a) := by
  unfold State.advance; split
  · next moves =>
    exact .setAxis ⟨rfl, .inl rfl, fun _ => rfl, fun still => by simp [moves.1] at still, id⟩
  · exact .of_axes rfl

theorem runPart_worked (a : AxisId) (s : State) (t : Task) : State.Worked a s (s.runPart a t) := by
  unfold State.runPart; split
  · exact .of_axes (applyClosed_axes s a _)
  · exact .of_axes (releaseAxis_axes s a)
  · exact advance_worked a s
  · exact .of_axes (State.axes_of_still (crossings_still a s _ _))
  · exact .of_axes (State.axes_of_still (boundaries_still a s _ _))
  · exact .of_axes (State.axes_of_still (settleApplied_still a s _))
  · exact silenceAxis_worked a s
  · exact .of_axes (haltReached_axes s a)
  · exact .of_axes (State.axes_of_still (runEntry_still a s _))

theorem takeParts_worked (a : AxisId) (ts : List Task) (s : State) : State.Worked a s (s.takeParts a ts) :=
  .foldl (takeVia_worked (runPart_worked a)) ts s

/-- The record of a HALTING axis that becomes HALTED with no count left (R39). -/
theorem haltIfDone_worked (a : AxisId) (s : State) : State.Worked a s (s.haltIfDone a) := by
  unfold State.haltIfDone; split
  · next done =>
    have dropped : State.Worked a s ((s.setAxis a { s.axis a with state := .halted }).dropReference a) := by
      unfold State.dropReference; split
      · rw [State.setAxis_setAxis]
        refine State.Worked.trans (State.Worked.setAxis ?_) (silenceAxis_worked a _)
        exact ⟨by rw [State.setAxis_axis_self], .inr ⟨done.1, by rw [State.setAxis_axis_self]⟩,
          fun still => absurd done.1 still, fun _ => by rw [State.setAxis_axis_self]; exact ⟨rfl, rfl⟩,
          by rw [State.setAxis_axis_self]; exact id⟩
      · exact .setAxis ⟨rfl, .inr ⟨done.1, rfl⟩, fun _ => rfl, fun _ => ⟨rfl, rfl⟩, id⟩
    exact dropped.trans (takeParts_worked a _ _)
  · exact .of_axes rfl

theorem run_worked (a : AxisId) (s : State) (t : Task) : State.Worked a s (s.run a t) := by
  unfold State.run; split
  · exact haltIfDone_worked a s
  · exact runPart_worked a s _

theorem take_worked (a : AxisId) (ts : List Task) (s : State) : State.Worked a s (s.take a ts) :=
  .foldl (takeVia_worked (run_worked a)) ts s

theorem resume_worked (a : AxisId) (s : State) : State.Worked a s (s.resume a) :=
  State.Worked.trans (t := s.setChannel a { s.channel a with rest := [] }) (.of_axes rfl) (take_worked a _ _)

/-- The channel ends its piece of work: what that makes of its axis (R57). -/
theorem finish_worked (a : AxisId) (s : State) : State.Worked a s (s.finish a) := by
  have resumed := resume_worked a { s with stops := [] }
  exact ⟨resumed.own, resumed.others⟩

theorem finish_axis_of_ne {a b : AxisId} (ne : b ≠ a) (s : State) : (s.finish a).axis b = s.axis b :=
  (finish_worked a s).others b ne

/-- Ending its work changes the state of a HALTING axis alone (R39). -/
theorem finish_state {a : AxisId} {s : State} (notHalting : (s.axis a).state ≠ .halting) :
    ((s.finish a).axis a).state = (s.axis a).state :=
  (finish_worked a s).own.state.resolve_right (fun h => notHalting h.1)

end Sys2Proof.Machine
end

section
/-! SUPPORT. A predicate on slots, axis records and waiting work that every piece of work keeps (`AxisKept`): what the
activity of the entries and the soundness of the axis records have in common. The work may have the silent end of some
axes still to take; these are the set the predicate is indexed by. -/

namespace Sys2Proof.Machine

/-! ### What the predicates read, and which writes keep them -/

/-- The slots, the axis records, and what is left of each channel's work. -/
def State.scene (s : State) : List (Nat × Slot) × Vector Axis 4 × (AxisId → List Task) :=
  (s.table, s.axes, fun a => (s.channel a).rest)

/-- A write that brings no entry above the table, and makes no entry ACTIVE but one of a REFERENCED axis (R1, R29). -/
def State.Calm (s : State) (h : Nat) (v : Slot) : Prop :=
  (v.entry?.isSome = true → (s.slot h).entry?.isSome = true ∨ h < Config.slotCount)
    ∧ (v.isActive = true → ∀ e ∈ v.entry?, (s.axis e.axis).referenced = true
        ∨ ((s.slot h).isActive = true ∧ (s.slot h).entry? = some e))

/-- A write of an axis record that leaves no ACTIVE entry without a reference or a silent end to come (R29, R79). -/
def State.Shelters (s : State) (due : Set AxisId) (a : AxisId) (y : Axis) : Prop :=
  a ∈ due ∨ s.axisHasDependents a = false
    ∨ ((s.axis a).Ok → (s.axis a).referenced = true ∨ (s.axis a).silentDue = true →
        y.referenced = true ∨ y.silentDue = true)

/-- `F` keeps to the scene, and holds on through every calm write of a slot, every sound and sheltering write of an axis
record, and every change of what is left of a channel's work but for a silent end; `F due` bears with the axes `due` until
their silent end. -/
structure AxisKept (F : Set AxisId → State → Prop) : Prop where
  scene : ∀ {due : Set AxisId} {s t : State}, t.scene = s.scene → F due s → F due t
  slot : ∀ {due : Set AxisId} {s : State} {h : Nat} {v : Slot}, F due s → s.Calm h v → F due (s.setSlot h v)
  rest : ∀ {due : Set AxisId} {s : State} {a : AxisId} {c : Channel}, F due s →
    (Task.silentEnd ∈ (s.channel a).rest → Task.silentEnd ∈ c.rest ∨ a ∈ due) → F due (s.setChannel a c)
  axis : ∀ {due : Set AxisId} {s : State} {a : AxisId} {y : Axis}, F due s → ((s.axis a).Ok → y.Ok) →
    s.Shelters due a y → F due (s.setAxis a y)
  silenced : ∀ {due : Set AxisId} {s : State} {a : AxisId} {y : Axis}, F due s → ((s.axis a).Ok → y.Ok) →
    F (due \ {a}) ((s.setAxis a y).silenceAxis a)
  left : ∀ {due : Set AxisId} {s : State} {a : AxisId}, F due s → Task.silentEnd ∈ (s.channel a).rest → F (due \ {a}) s
  waits : ∀ {due : Set AxisId} {s : State} (a : AxisId), F due s →
    F (due \ {a}) (s.setAxis a { s.axis a with silentDue := true })
  mono : ∀ {due due' : Set AxisId} {s : State}, F due s → due ⊆ due' → F due' s

section
variable {F : Set AxisId → State → Prop} {due : Set AxisId} {s : State}

/-- A write that brings in no entry. -/
theorem calm_of_empty {h : Nat} {v : Slot} (empty : v.entry? = none) : s.Calm h v := by
  simp [State.Calm, empty]

/-- A write that keeps a slot in use and makes nothing ACTIVE. -/
theorem calm_of_inactive {h : Nat} {v : Slot} (inactive : v.isActive = false)
    (used : (s.slot h).entry?.isSome = true) : s.Calm h v := by
  simp [State.Calm, inactive, used]

/-- A write of a LIVE entry's run-time fields that leaves its activity. -/
theorem calm_of_activity {h : Nat} {e : Entry} {ok ok' : Bool} {r r' : Run} (live : s.slot h = .live e ok r)
    (same : r'.activity = r.activity) : s.Calm h (.live e ok' r') := by
  simp only [State.Calm, live, Slot.isActive, Slot.entry?, same]
  exact ⟨fun _ => .inl rfl, fun active e m => .inr ⟨active, by simpa using m⟩⟩

/-- A write of a LIVE entry of a REFERENCED axis. -/
theorem calm_of_referenced {h : Nat} {e : Entry} {ok ok' : Bool} {r r' : Run} (live : s.slot h = .live e ok r)
    (referenced : (s.axis e.axis).referenced = true) : s.Calm h (.live e ok' r') := by
  simp only [State.Calm, live, Slot.entry?]
  exact ⟨fun _ => .inl rfl, fun _ e' m => .inl (by cases m; exact referenced)⟩

theorem retiredSlot_inactive (e : Entry) (ok : Bool) (log : FireLog) : (retiredSlot e ok log).isActive = false := by
  unfold retiredSlot; split <;> rfl

theorem AxisKept.foldl (_k : AxisKept F) {α : Type} {f : State → α → State}
    (keeps : ∀ s x, F due s → F due (f s x)) (xs : List α) (holds : F due s) : F due (xs.foldl f s) :=
  Kept.foldl keeps xs holds

/-- A write of an axis record that keeps its reference and its silent end. -/
theorem AxisKept.write (k : AxisKept F) {a : AxisId} {y : Axis} (sound : (s.axis a).Ok → y.Ok)
    (referenced : y.referenced = (s.axis a).referenced) (waits : y.silentDue = (s.axis a).silentDue)
    (holds : F due s) : F due (s.setAxis a y) :=
  k.axis holds sound (.inr (.inr (fun _ h => by rw [referenced, waits]; exact h)))

/-- A write of an axis record that references its axis. -/
theorem AxisKept.reference (k : AxisKept F) {a : AxisId} {y : Axis} (sound : (s.axis a).Ok → y.Ok)
    (referenced : y.referenced = true) (holds : F due s) : F due (s.setAxis a y) :=
  k.axis holds sound (.inr (.inr (fun _ _ => .inl referenced)))

/-! ### Fires, fences and the work on one entry -/

theorem setList_scene (s : State) (a : AxisId) (l : PendingList) : (s.setList a l).scene = s.scene := rfl

theorem setOutput_scene (s : State) (o : OutId) (x : Output) : (s.setOutput o x).scene = s.scene := rfl

theorem countUpFor_scene (s : State) (e : Entry) : (s.countUpFor e).scene = s.scene := by
  unfold State.countUpFor; cases e.output <;> rfl

theorem countDownFor_scene (s : State) (e : Entry) : (s.countDownFor e).scene = s.scene := by
  unfold State.countDownFor; cases e.output <;> rfl

theorem AxisKept.endActivity (k : AxisKept F) (h : Nat) (holds : F due s) : F due (s.endActivity h) := by
  unfold State.endActivity; split
  · next e ok r live =>
    split
    · exact holds
    · exact k.scene (countDownFor_scene _ _) (k.slot holds (calm_of_inactive rfl (by rw [live]; rfl)))
  · exact holds

theorem AxisKept.silenceAxis (k : AxisKept F) (a : AxisId) (holds : F due s) : F (due \ {a}) (s.silenceAxis a) := by
  have silenced := k.silenced (a := a) (y := s.axis a) holds id
  rwa [State.setAxis_self] at silenced

theorem AxisKept.hand (k : AxisKept F) (h : Nat) (holds : F due s) : F due (s.hand h) := by
  unfold State.hand; split
  · next e ok r live => exact k.slot holds (calm_of_activity live rfl)
  · next e ok l fenced => exact k.slot holds (calm_of_inactive rfl (by rw [fenced]; rfl))
  · next e ok l unread => exact k.slot holds (calm_of_inactive rfl (by rw [unread]; rfl))
  all_goals exact holds

theorem reportFault_scene (s : State) (cause : FaultCause) (a : AxisId) (p : Nat) (rev : BitVec 16) :
    (s.reportFault cause a p rev).scene = s.scene := by
  unfold State.reportFault; split <;> rfl

theorem AxisKept.runClaim (k : AxisKept F) (t : Task) (holds : F due s) : F due (s.runClaim t) := by
  cases t with
  | hand h => exact k.hand h holds
  | fenceOutput h o kind wasActive => exact k.scene (s := s) rfl holds
  | fenceReport h a p rev => exact k.scene (reportFault_scene s _ a p rev) holds
  | _ => exact holds

theorem AxisKept.defer (k : AxisKept F) (a : AxisId) (t : Task) (holds : F due s) : F due (s.defer a t) :=
  k.rest holds (fun m => .inl (List.mem_append_left _ m))

/-- A turn of a channel carries its task out or leaves it. -/
theorem AxisKept.takeVia (k : AxisKept F) {run : State → Task → State} {t : Task} (a : AxisId)
    (keeps : F due s → F due (run s t)) (holds : F due s) : F due (s.takeVia run a t) := by
  unfold State.takeVia; split
  · exact k.defer a t holds
  · exact keeps holds

theorem AxisKept.takeAll (k : AxisKept F) {run : State → Task → State} (a : AxisId)
    (keeps : ∀ s t, F due s → F due (run s t)) (ts : List Task) (holds : F due s) :
    F due (ts.foldl (State.takeVia run a) s) :=
  k.foldl (fun s t p => k.takeVia a (keeps s t) p) ts holds

theorem AxisKept.takeHanding (k : AxisKept F) (h : Nat) (a : AxisId) (holds : F due s) :
    F due (State.takeHanding h s a) := by
  unfold State.takeHanding; split
  · next eq =>
    split
    · exact k.hand h (k.rest holds (fun m => .inl (by rw [eq] at m; simpa using m)))
    · exact holds
  · exact holds

theorem AxisKept.takeHandings (k : AxisKept F) (h : Nat) (holds : F due s) : F due (s.takeHandings h) :=
  k.foldl (fun _ a => k.takeHanding h a) axisIds holds

theorem AxisKept.fenceSlot (k : AxisKept F) {h : Nat} {e : Entry} {wasActive : Bool} {log : FireLog}
    (takes : (s.slot h).toFence = some (e, wasActive, log)) (holds : F due s) : F due (s.fenceSlot h e log) := by
  unfold State.fenceSlot
  refine k.scene (setList_scene _ _ _) ?_
  rcases toFence_eq_some takes with ⟨ok, staged, -, -⟩ | ⟨ok, r, live, -, -⟩
  · simp only [staged, Slot.lifecycle, if_true]
    exact k.slot (k.takeHandings h holds) (calm_of_inactive rfl (by rw [takeHandings_slot_staged staged]; rfl))
  · simp only [live, Slot.lifecycle, reduceCtorEq, if_false]
    exact k.slot holds (calm_of_inactive rfl (by rw [live]; rfl))

theorem AxisKept.beginFence (k : AxisKept F) (h : Nat) (holds : F due s) : F due (s.beginFence h).1 := by
  unfold State.beginFence
  split
  · next takes => exact k.fenceSlot takes holds
  · exact holds

theorem AxisKept.fenceFrom (k : AxisKept F) (a : AxisId) (h : Nat) (holds : F due s) : F due (s.fenceFrom a h) :=
  k.takeAll a (fun _ t => k.runClaim t) _ (k.beginFence h holds)

theorem AxisKept.checkRead (k : AxisKept F) (h : Nat) (holds : F due s) : F due (s.checkRead h).1 := by
  unfold State.checkRead; split
  · exact k.beginFence h holds
  · exact holds

/-- A fire of an entry of a REFERENCED axis, or one that leaves the entry IDLE. -/
theorem AxisKept.fire (k : AxisKept F) (a : AxisId) (h : Nat) (dir : FireDir) (act : Activity)
    (may : ∀ e ok r, s.slot h = .live e ok r → (s.axis e.axis).referenced = true) (holds : F due s) :
    F due (s.fire a h dir act) := by
  unfold State.fire; split
  · next e ok r live =>
    have written : F due (s.setSlot h (.live e ok (r.fired e (s.axis e.axis).revolution dir act))) :=
      k.slot holds (calm_of_referenced live (may e ok r live))
    simp only
    split
    · exact k.takeVia a (k.runClaim _) written
    · exact written
  · exact holds

theorem judged_referenced {a : AxisId} {h : Nat} {e : Entry} {ok : Bool} {r : Run}
    (judged : s.judged a h = some (e, ok, r)) :
    ∀ e' ok' r', s.slot h = .live e' ok' r' → (s.axis e'.axis).referenced = true := by
  intro e' ok' r' live
  simp only [State.judged, live] at judged
  split at judged
  · next may => rw [may.1]; exact may.2.1
  · cases judged

theorem AxisKept.activate (k : AxisKept F) (a : AxisId) (h : Nat) (e : Entry) (dir : FireDir) (timer : Option Nat)
    (may : ∀ e ok r, s.slot h = .live e ok r → (s.axis e.axis).referenced = true) (holds : F due s) :
    F due (s.activate a h e dir timer) := by
  refine k.fire a h dir _ (fun e' ok r live => ?_) (k.scene (countUpFor_scene s e) holds)
  rw [State.axis_of_still (countUpFor_still s e)]
  exact may e' ok r ((countUpFor_slot s e h).symm.trans live)

theorem AxisKept.judge (k : AxisKept F) (a : AxisId) (h : Nat) {act : Entry → Run → State}
    (keeps : ∀ e r, (∀ e' ok' r', s.slot h = .live e' ok' r' → (s.axis e'.axis).referenced = true) → F due (act e r))
    (holds : F due s) : F due (s.judge a h act) := by
  unfold State.judge; split
  · exact holds
  · next e ok r judged =>
    split
    · exact keeps e r (judged_referenced judged)
    · exact k.fenceFrom a h holds

theorem AxisKept.settleEntry (k : AxisKept F) (a : AxisId) (h : Nat) (e : Entry) (r : Run)
    (may : ∀ e ok r, s.slot h = .live e ok r → (s.axis e.axis).referenced = true) (holds : F due s) :
    F due (s.settleEntry a h e r) := by
  unfold State.settleEntry; split
  · split
    · exact k.activate a h e _ _ may holds
    · exact holds
  · exact holds

theorem invertOnce_scene (s : State) (a : AxisId) (o : OutId) : (s.invertOnce a o).scene = s.scene := by
  unfold State.invertOnce
  simp only
  split
  · rfl
  · have rests : ∀ b, ((s.setChannel a { s.channel a with inverted := o :: (s.channel a).inverted }).channel b).rest
        = (s.channel b).rest := by
      intro b
      rw [State.setChannel_channel]
      split
      · next same => rw [same]
      · rfl
    exact congrArg (fun rest : AxisId → List Task => (s.table, s.axes, rest)) (funext rests)

theorem AxisKept.crossFire (k : AxisKept F) (a : AxisId) (h : Nat) (e : Entry) (r : Run) (dir : FireDir)
    (may : ∀ e ok r, s.slot h = .live e ok r → (s.axis e.axis).referenced = true) (holds : F due s) :
    F due (s.crossFire a h e r dir) := by
  unfold State.crossFire; split
  · exact holds
  · split
    · exact k.activate a h e dir _ may holds
    · exact k.fire a h dir _ may holds
  · next o q toggle =>
    refine k.fire a h dir _ (fun e' ok' r' live => ?_) (k.scene (invertOnce_scene s a o) holds)
    rw [State.axis_of_still (invertOnce_still s a o)]
    exact may e' ok' r' ((invertOnce_slot s a o h).symm.trans live)
  · exact k.fire a h dir _ may holds

/-- The tasks on single entries, and the claims that finish them. -/
theorem AxisKept.runEntry (k : AxisKept F) (a : AxisId) (t : Task) (holds : F due s) : F due (s.runEntry a t) := by
  unfold State.runEntry; split
  · next h dir =>
    exact k.judge a h (fun e r may => by
      split
      · exact k.crossFire a h e r dir may holds
      · exact holds) holds
  · next h point dir =>
    exact k.judge a h (fun e r may => by
      split
      · split
        · split
          · exact k.activate a h e dir _ may holds
          · exact holds
        · exact k.endActivity h holds
      · exact holds) holds
  · next h =>
    exact k.judge a h (fun e r _ => by
      split
      · split
        · exact holds
        · exact k.endActivity h holds
      · exact holds) holds
  · next h => exact k.judge a h (fun e r may => k.settleEntry a h e r may holds) holds
  · next h =>
    unfold State.jumpSettle; split
    · exact holds
    · next judged => exact k.settleEntry a h _ _ (judged_referenced judged) holds
  · exact k.runClaim _ holds

theorem AxisKept.takeEntries (k : AxisKept F) (a : AxisId) (ts : List Task) (holds : F due s) :
    F due (s.takeEntries a ts) := k.takeAll a (fun _ t => k.runEntry a t) ts holds

theorem AxisKept.clearInverted (k : AxisKept F) (a : AxisId) (holds : F due s) :
    F due (s.setChannel a { s.channel a with inverted := [] }) := k.rest holds .inl

theorem AxisKept.clearSpent (k : AxisKept F) (h : Nat) (holds : F due s) : F due (s.clearSpent h) := by
  unfold State.clearSpent; split
  · next e ok r live => exact k.slot holds (calm_of_activity live rfl)
  · exact holds

/-! ### Lists -/

theorem AxisKept.applyItem (k : AxisKept F) (i : Item) (holds : F due s) : F due (s.applyItem i) := by
  cases i with
  | place h =>
    simp only [State.applyItem, State.applyPlace]; split
    · next e ok staged =>
      exact k.slot (k.takeHandings h holds) (calm_of_inactive rfl (by rw [takeHandings_slot_staged staged]; rfl))
    · exact holds
  | alter h v =>
    simp only [State.applyItem, State.applyAlter]; split
    · next e ok r live =>
      exact k.slot (k.endActivity h holds) (calm_of_inactive rfl (by rw [endActivity_slot_self_live live]; rfl))
    · exact holds
  | retire h =>
    simp only [State.applyItem, State.applyRetire]; split
    · next e ok r live =>
      exact k.slot (k.endActivity h holds)
        (calm_of_inactive (retiredSlot_inactive e ok r.log) (by rw [endActivity_slot_self_live live]; rfl))
    · exact holds
  | setLead o lead =>
    have silenced : F due ((s.liveOn o).foldl State.endActivity s) := k.foldl (fun _ h => k.endActivity h) _ holds
    exact k.scene (setOutput_scene _ _ _) silenced

theorem AxisKept.applyNext (k : AxisKept F) (a : AxisId) (holds : F due s) : F due (s.applyNext a) := by
  unfold State.applyNext; split
  · exact holds
  · next i more _ =>
    simp only
    split
    · refine k.scene (setList_scene _ _ _) ?_
      cases i.handle? with
      | none => exact holds
      | some h => exact k.fenceFrom a h holds
    · exact k.applyItem i (k.scene (setList_scene _ _ _) holds)

theorem endApplication_scene (s : State) (a : AxisId) (announced : Bool) :
    (s.endApplication a announced).scene = s.scene := by
  unfold State.endApplication
  simp only
  split <;> rfl

theorem AxisKept.applyClosed (k : AxisKept F) (a : AxisId) (announced : Bool) (holds : F due s) :
    F due (s.applyClosed a announced) := by
  have items : F due ((s.list a).items.foldl (fun t _ => if t.busy a then t else t.applyNext a) s) :=
    k.foldl (f := fun (t : State) (_ : Item) => if t.busy a then t else t.applyNext a) (fun t _ p => by
      split
      · exact p
      · exact k.applyNext a p) (s.list a).items holds
  unfold State.applyClosed; split
  · simp only
    split
    · exact k.defer a _ items
    · exact k.scene (endApplication_scene _ _ _) items
  · exact holds

/-! ### The pieces of work of a channel -/

theorem releaseAxis_scene (s : State) (a : AxisId) : (s.releaseAxis a).scene = s.scene := by
  unfold State.releaseAxis State.releaseWhere State.finishRelease
  split
  · split
    · split <;> rfl
    · rfl
  · rfl

theorem enterSafe_scene (s : State) : s.enterSafe.scene = s.scene := by
  unfold State.enterSafe; split <;> rfl

theorem haltReached_scene (s : State) (a : AxisId) : (s.haltReached a).scene = s.scene := by
  unfold State.haltReached; split <;> rfl

/-- A count taken keeps an axis record sound (R51, R62). -/
theorem advance_ok {x : Axis} (moves : x.stepping = true ∧ x.backlog ≠ 0) (ok : x.Ok) : x.advance.Ok := by
  obtain ⟨low, high, position, index, rateLow, rateHigh, remainder, corrections, backlog, idle, rest, off, on⟩ := ok
  have stepping : x.state = .running ∨ x.state = .halting := by simpa [Axis.stepping] using moves.1
  refine ⟨low, high, ?_, index, rateLow, rateHigh, remainder, corrections, ?_, fun outside => ?_, rest, off, on⟩
  · show x.plan.newPosition < x.modulus
    unfold Axis.plan
    simp only
    split
    · show (if x.position + 1 < x.modulus then x.position + 1 else 0) < x.modulus
      split <;> omega
    · show (if x.position = 0 then x.modulus - 1 else x.position - 1) < x.modulus
      split <;> omega
  · show (if 0 < x.backlog then x.backlog - 1 else x.backlog + 1).natAbs ≤ Config.backlogLimit
    have := moves.2
    split <;> omega
  · rcases stepping with state | state <;> simp [Axis.advance, state] at outside

theorem AxisKept.advance (k : AxisKept F) (a : AxisId) (holds : F due s) : F due (s.advance a) := by
  unfold State.advance; split
  · next moves => exact k.write (advance_ok moves) rfl rfl holds
  · exact holds

/-- A part of a piece of work that is no silent end; a silent end settles the axis (R79). -/
theorem AxisKept.runPart (k : AxisKept F) (a : AxisId) (t : Task) (holds : F due s) : F due (s.runPart a t) := by
  unfold State.runPart; split
  · exact k.applyClosed a _ holds
  · exact k.scene (releaseAxis_scene s a) holds
  · exact k.advance a holds
  · exact k.takeEntries a _ (k.clearInverted a holds)
  · exact k.takeEntries a _ (k.clearInverted a holds)
  · exact k.takeEntries a _ holds
  · exact k.mono (k.silenceAxis a holds) Set.sdiff_subset
  · exact k.scene (haltReached_scene s a) holds
  · exact k.runEntry a _ holds

theorem AxisKept.takeParts (k : AxisKept F) (a : AxisId) (ts : List Task) (holds : F due s) : F due (s.takeParts a ts) :=
  k.takeAll a (fun _ t => k.runPart a t) ts holds

/-- The record of an axis that becomes HALTED with no count left is sound (R29, R39). -/
theorem halted_ok {x : Axis} (state : x.state = .halting) (done : x.backlog = 0) (ok : x.Ok) :
    ({ x with state := .halted } : Axis).Ok := by
  obtain ⟨low, high, position, index, rateLow, rateHigh, remainder, corrections, backlog, idle, rest, off, on⟩ := ok
  exact ⟨low, high, position, index, rateLow, rateHigh, remainder, corrections, backlog, fun _ => done,
    fun _ => rest (by simp [state]), nofun, fun _ => on (by simp [state])⟩

/-- An ENCODER axis can lose its reference (R29). -/
theorem unreferenced_ok {x : Axis} (encoder : x.source = .encoder) (ok : x.Ok) :
    ({ x with referenced := false } : Axis).Ok := by
  obtain ⟨low, high, position, index, rateLow, rateHigh, remainder, corrections, backlog, idle, rest, off, on⟩ := ok
  exact ⟨low, high, position, index, rateLow, rateHigh, remainder, corrections, backlog, idle, rest, fun _ => rfl,
    fun _ other => absurd encoder other⟩

theorem AxisKept.dropReference (k : AxisKept F) (a : AxisId) (holds : F due s) : F due (s.dropReference a) := by
  unfold State.dropReference; split
  · next encoder => exact k.mono (k.silenced holds (unreferenced_ok encoder)) Set.sdiff_subset
  · exact holds

theorem AxisKept.reachHalted (k : AxisKept F) (a : AxisId) (state : (s.axis a).state = .halting)
    (done : (s.axis a).backlog = 0) (holds : F due s) : F due (s.reachHalted a) :=
  k.takeParts a _ (k.dropReference a (k.write (halted_ok state done) rfl rfl holds))

theorem AxisKept.run (k : AxisKept F) (a : AxisId) (t : Task) (holds : F due s) : F due (s.run a t) := by
  unfold State.run; split
  · unfold State.haltIfDone; split
    · next done => exact k.reachHalted a done.1 done.2 holds
    · exact holds
  · exact k.runPart a _ holds

theorem AxisKept.take (k : AxisKept F) (a : AxisId) (ts : List Task) (holds : F due s) : F due (s.take a ts) :=
  k.takeAll a (fun _ t => k.run a t) ts holds

/-- Tasks among which there is the silent end of their axis: it is taken, or it is left in the channel (R79). -/
theorem AxisKept.take_silentEnd (k : AxisKept F) (a : AxisId) {ts : List Task} (silent : Task.silentEnd ∈ ts)
    {s : State} (holds : F due s) : F (due \ {a}) (s.take a ts) := by
  induction ts generalizing s with
  | nil => cases silent
  | cons t ts ih =>
    rcases List.mem_cons.1 silent with rfl | later
    · refine k.take a ts (s := s.takeVia (State.run a) a .silentEnd) ?_
      unfold State.takeVia; split
      · exact k.left (k.defer a .silentEnd holds) (by simp [State.defer])
      · exact k.silenceAxis a holds
    · exact ih later (s := s.takeVia (State.run a) a t) (k.takeVia a (k.run a t) holds)

/-- A channel goes on with its work (R57). -/
theorem AxisKept.resume (k : AxisKept F) (a : AxisId) (holds : F due s) : F due (s.resume a) := by
  unfold State.resume
  by_cases silent : Task.silentEnd ∈ (s.channel a).rest
  · have emptied : F (insert a due) (s.setChannel a { s.channel a with rest := [] }) :=
      k.rest (k.mono holds (Set.subset_insert a due)) (fun _ => .inr (Set.mem_insert a due))
    exact k.mono (k.take_silentEnd a silent emptied) (by rintro b ⟨rfl | m, ne⟩; exacts [absurd rfl ne, m])
  · exact k.take a _ (k.rest holds (fun m => absurd m silent))

theorem AxisKept.stopping (k : AxisKept F) (stops : List StopPoint) {work : State → State}
    (keeps : ∀ t, F due t → F due (work t)) (holds : F due s) : F due (s.stopping stops work) :=
  k.scene (s := work { s with stops := stops }) rfl
    (keeps _ (k.scene (s := s) (t := { s with stops := stops }) rfl holds))

theorem AxisKept.finish (k : AxisKept F) (a : AxisId) (holds : F due s) : F due (s.finish a) :=
  k.stopping [] (fun _ => k.resume a) holds

theorem wrapRevolution_ok {x : Axis} (dir : FireDir) (ok : x.Ok) : (x.wrapRevolution dir).Ok := ok

theorem AxisKept.beginStep (k : AxisKept F) (a : AxisId) (holds : F due s) : F due (s.beginStep a) := by
  refine k.take a _ ?_
  split
  · exact k.foldl (fun _ h => k.clearSpent h) _ (k.write (wrapRevolution_ok _) rfl rfl holds)
  · exact holds

theorem AxisKept.endApplying (k : AxisKept F) (a : AxisId) (holds : F due s) : F due (s.endApplying a) := by
  unfold State.endApplying; split
  · exact k.finish a holds
  · exact holds

theorem AxisKept.endAllApplying (k : AxisKept F) (holds : F due s) : F due s.endAllApplying :=
  k.foldl (fun _ a => k.endApplying a) axisIds holds

/-! ### Axis faults -/

/-- The record of a faulted axis that has run is sound (R29, R55). -/
theorem fault_ok {x : Axis} (cause : FaultCause) (running : x.state = .running) (ok : x.Ok) : (x.fault cause).Ok := by
  obtain ⟨low, high, position, index, rateLow, rateHigh, remainder, corrections, backlog, idle, rest, off, on⟩ := ok
  refine ⟨low, high, position, index, rateLow, rateHigh, Nat.zero_le 9999, corrections,
    Nat.zero_le _, fun _ => rfl, fun _ => rfl, nofun, fun _ (other : x.source ≠ .encoder) => ?_⟩
  have referenced := on (by simp [running]) other
  have unlike : (x.source != .encoder) = true := by simpa using other
  show (x.referenced && x.source != .encoder) = true
  rw [referenced, unlike]
  rfl

theorem faultToSafeState_scene (s : State) (a : AxisId) : (s.faultToSafeState a).scene = s.scene := by
  unfold State.faultToSafeState; split
  · exact enterSafe_scene s
  · exact releaseAxis_scene s a

/-- A claim of a fault keeps `F`; the silent end settles the axis, taken or left (R55). -/
theorem AxisKept.faultClaim (k : AxisKept F) (a : AxisId) (cause : FaultCause) (tracked : Nat) (later : Bool)
    (c : FaultClaim) (holds : F due s) :
    F (if c = .silentEnd then due \ {a} else due) (State.faultClaim a cause tracked later s c) := by
  cases c with
  | silentEnd =>
    simp only [State.faultClaim, if_true]; split
    · exact k.waits a holds
    · exact k.take_silentEnd a (by simp) holds
  | applyList => exact k.take a _ holds
  | report => exact k.scene (reportFault_scene _ _ _ _ _) holds
  | attention => exact k.scene (s := s) rfl holds
  | safeState => exact k.scene (faultToSafeState_scene s a) holds

/-- The claims of a fault, the silent end among them. -/
theorem AxisKept.faultClaims (k : AxisKept F) (a : AxisId) (cause : FaultCause) (tracked : Nat) (later : Bool)
    {cs : List FaultClaim} (silent : FaultClaim.silentEnd ∈ cs) (holds : F due s) :
    F (due \ {a}) (cs.foldl (State.faultClaim a cause tracked later) s) := by
  obtain ⟨before, after, rfl⟩ := List.append_of_mem silent
  have claim (t : State) (c : FaultClaim) {due : Set AxisId} (p : F due t) :
      F due (State.faultClaim a cause tracked later t c) :=
    k.mono (k.faultClaim a cause tracked later c p) (by split <;> simp)
  rw [List.foldl_append, List.foldl_cons]
  have silenced := k.faultClaim a cause tracked later .silentEnd (k.foldl (fun t c => claim t c) before holds)
  exact k.foldl (fun t c => claim t c) after (by simpa using silenced)

theorem silentEnd_mem_inTurn (given : List FaultClaim) : FaultClaim.silentEnd ∈ inTurn given faultClaims := by
  by_cases named : FaultClaim.silentEnd ∈ given
  · exact List.mem_append_left _ (List.mem_eraseDups.2 named)
  · exact List.mem_append_right _ (List.mem_filter.2 ⟨by simp [faultClaims], by simpa using named⟩)

theorem AxisKept.axisFault (k : AxisKept F) (a : AxisId) (cause : FaultCause) (order : FaultOrder) (holds : F due s) :
    F due (s.axisFault a cause order) := by
  unfold State.axisFault; split
  · next running =>
    have still : ((s.finish a).axis a).state = .running := by rw [finish_state (by simp [running]), running]
    refine k.scene (s := State.takeFault { s.finish a with stops := order.stops } a cause order) rfl ?_
    have faulted : F (insert a due) ((s.finish a).setAxis a (((s.finish a).axis a).fault cause)) :=
      k.axis (k.mono (k.finish a holds) (Set.subset_insert a due)) (fault_ok cause still) (.inl (Set.mem_insert a due))
    refine k.mono (k.faultClaims a cause _ _ (silentEnd_mem_inTurn _)
      (k.scene (s := (s.finish a).setAxis a (((s.finish a).axis a).fault cause)) rfl faulted)) ?_
    rintro b ⟨rfl | m, ne⟩
    exacts [absurd rfl ne, m]
  · exact holds

/-- Counts added within the limit keep the record of a stepped axis sound (R50). -/
theorem addCounts_ok {x : Axis} {n : Int} (stepping : x.stepping = true)
    (within : (x.backlog + n).natAbs ≤ Config.backlogLimit) (ok : x.Ok) :
    ({ x with backlog := x.backlog + n } : Axis).Ok := by
  obtain ⟨low, high, position, index, rateLow, rateHigh, remainder, corrections, backlog, idle, rest, off, on⟩ := ok
  refine ⟨low, high, position, index, rateLow, rateHigh, remainder, corrections, within, fun outside => ?_, rest, off, on⟩
  have states : x.state = .running ∨ x.state = .halting := by simpa [Axis.stepping] using stepping
  rcases states with state | state <;> simp [state] at outside

theorem AxisKept.addCounts (k : AxisKept F) (a : AxisId) (n : Int) (order : FaultOrder)
    (stepping : (s.axis a).stepping = true) (holds : F due s) : F due (s.addCounts a n order) := by
  unfold State.addCounts
  simp only
  split
  · next within => exact k.write (addCounts_ok stepping within) rfl rfl holds
  · exact k.axisFault a _ order holds

theorem stepping_of_running {x : Axis} (running : x.state = .running) : x.stepping = true := by
  simp [Axis.stepping, running]

theorem AxisKept.addOneByOne (k : AxisKept F) (a : AxisId) (unit : Int) (order : FaultOrder) (n : Nat)
    (holds : F due s) : F due (State.addOneByOne a unit order n s) := by
  induction n generalizing s with
  | zero => exact holds
  | succ n ih =>
    unfold State.addOneByOne; split
    · next running => exact ih (k.addCounts a unit order (stepping_of_running running) holds)
    · exact holds

end

end Sys2Proof.Machine
end

section
/-! SUPPORT. A predicate that every piece of work keeps (`AxisKept`) is kept by the blocks of the requests, by the port and
by the events of the part, and so by every step. -/

namespace Sys2Proof.Machine

section
variable {F : Set AxisId → State → Prop} {due : Set AxisId} {s : State}

/-! ### How the work of a request goes on -/

theorem AxisKept.retireFenced (k : AxisKept F) (h : Nat) (holds : F due s) : F due (s.retireFenced h).1 := by
  unfold State.retireFenced; split
  · next e ok log fenced =>
    exact k.slot holds (calm_of_inactive (retiredSlot_inactive e ok log) (by rw [fenced]; rfl))
  · exact holds

theorem AxisKept.proceed (k : AxisKept F) (next : Next) (holds : F due s) : F due (s.proceed next).1 := by
  cases next with
  | reply status payload => exact holds
  | retire h => exact k.retireFenced h holds
  | closed a items h retired => exact k.takeParts a _ holds

theorem AxisKept.takeClaims (k : AxisKept F) (ts : List Task) (holds : F due s) : F due (s.takeClaims ts).1 := by
  induction ts generalizing s with
  | nil => exact holds
  | cons t ts ih =>
    unfold State.takeClaims; split
    · exact holds
    · exact ih (k.runClaim t holds)

theorem AxisKept.goOn (k : AxisKept F) (w : Work) (holds : F due s) : F due (s.goOn w).1 := by
  cases w with
  | claiming rest next stops =>
    have taken := k.takeClaims rest holds
    simp only [State.goOn]
    rcases eq : s.takeClaims rest with ⟨t, _ | ⟨c, left⟩⟩
    · rw [eq] at taken; exact k.proceed next taken
    · rw [eq] at taken; exact taken
  | channel a next stops =>
    simp only [State.goOn]; split
    · exact holds
    · exact k.proceed next holds
  | sampling asked rest taken stops =>
    simp only [State.goOn]
    rcases s.takeItemsOf taken rest with ⟨_ | ⟨i, left⟩, taken⟩ <;> exact holds
  | _ => exact holds

theorem AxisKept.restop (k : AxisKept F) (stops : List StopPoint) (holds : F due s) : F due { s with stops := stops } :=
  k.scene (s := s) rfl holds

theorem AxisKept.resumeWork (k : AxisKept F) (w : Work) (holds : F due s) : F due (s.resumeWork w).1 := by
  unfold State.resumeWork; split
  · exact k.goOn _ (k.restop _ (k.runClaim _ holds))
  · exact k.goOn _ (k.restop _ holds)
  · refine k.goOn _ (k.restop _ ?_)
    split
    · exact k.finish _ holds
    · exact holds
  · exact k.goOn _ (k.restop _ holds)
  · exact k.goOn _ (k.restop _ holds)
  · exact holds

/-! ### CONFIG_AXIS -/

theorem withinNat_eq_some {lo hi v n : Nat} (within : withinNat lo hi v = some n) : lo ≤ n ∧ n ≤ hi := by
  unfold withinNat at within
  split at within
  · next bounds => cases within; exact bounds
  · cases within

theorem withinInt_eq_some {lo hi v n : Int} (within : withinInt lo hi v = some n) : lo ≤ n ∧ n ≤ hi := by
  unfold withinInt at within
  split at within
  · next bounds => cases within; exact bounds
  · cases within

/-- A decoded configuration is in range (R33, R187). -/
theorem decodeConfigAxis_inRange {args : List Byte} {a : AxisId} {c : AxisConfig}
    (decoded : decodeConfigAxis args = some (a, some c)) : c.InRange := by
  have fields : decodeAxisConfig args = some c := by
    simp only [decodeConfigAxis, Option.bind_eq_bind, Option.bind_eq_some_iff] at decoded
    obtain ⟨b, -, chosen⟩ := decoded
    split at chosen
    · simp only [Option.map_eq_some_iff, Prod.mk.injEq, Option.some.injEq] at chosen
      obtain ⟨c', read, -, rfl⟩ := chosen
      exact read
    · cases chosen
    · cases chosen
  simp only [decodeAxisConfig, Option.bind_eq_bind, Option.bind_eq_some_iff, Option.pure_def, Option.some.injEq] at fields
  obtain ⟨source, -, modulus, within, index, read, invert, -, action, -, rfl⟩ := fields
  refine ⟨(withinNat_eq_some within).1, (withinNat_eq_some within).2, fun p m => ?_⟩
  simp only [decodeIndexPoint] at read
  split at read
  · split at read
    · next below => cases read; cases m; exact below
    · cases read
  · cases read; cases m
  · cases read

/-- The record of a first configuration is sound (R34). -/
theorem firstConfigured_ok {x : Axis} {c : AxisConfig} (l : Lines) (range : c.InRange) (ok : x.Ok) :
    (x.firstConfigured c l).Ok := by
  obtain ⟨low, high, index⟩ := range
  obtain ⟨-, -, -, -, rateLow, rateHigh, -⟩ := ok
  exact ⟨low, high, Nat.lt_of_lt_of_le (Nat.zero_lt_succ 15) low, index, rateLow, rateHigh, Nat.zero_le _, Nat.zero_le _,
    Nat.zero_le _, fun _ => rfl, fun _ => rfl, nofun, fun _ (other : c.source ≠ .encoder) => by
      simpa [Axis.firstConfigured] using other⟩

/-- So is that of a HALTED axis with another modulus (R36). -/
theorem remodulused_ok {x : Axis} {c : AxisConfig} (halted : x.state = .halted) (range : c.InRange) (ok : x.Ok) :
    (x.remodulused c).Ok := by
  obtain ⟨low, high, index⟩ := range
  obtain ⟨-, -, -, -, rateLow, rateHigh, remainder, -, backlog, idle, rest, -⟩ := ok
  exact ⟨low, high, Nat.lt_of_lt_of_le (Nat.zero_lt_succ 15) low, index, rateLow, rateHigh, remainder, Nat.zero_le _, backlog, idle,
    rest, fun (off : x.state = .off) => by simp [halted] at off, fun _ (other : c.source ≠ .encoder) => by
      simpa [Axis.remodulused] using other⟩

theorem switchedOff_ok {x : Axis} (ok : x.Ok) : x.switchedOff.Ok := by
  obtain ⟨low, high, -, index, rateLow, rateHigh, -⟩ := ok
  exact ⟨low, high, Nat.lt_of_lt_of_le (Nat.zero_lt_succ 15) low, index, rateLow, rateHigh, Nat.zero_le _, Nat.zero_le _,
    Nat.zero_le _, fun _ => rfl, fun _ => rfl, fun _ => rfl, fun on => absurd rfl on⟩

/-- A HALTED axis configured again with its modulus keeps a sound record where the reference follows the source (R35). -/
theorem configure_ok {x y : Axis} {c : AxisConfig} (halted : x.state = .halted) (modulus : c.modulus = x.modulus)
    (range : c.InRange) (reference : c.source ≠ .encoder → y.referenced = true)
    (corrections : y.corrections = x.corrections ∨ y.corrections = 0)
    (rest : y = { x.configure c with referenced := y.referenced, corrections := y.corrections }) (ok : x.Ok) : y.Ok := by
  obtain ⟨low, high, index⟩ := range
  obtain ⟨-, -, position, -, rateLow, rateHigh, remainder, few, backlog, idle, still, -⟩ := ok
  rw [rest]
  refine ⟨low, high, ?_, index, rateLow, rateHigh, remainder, ?_, backlog, idle, still,
    fun (off : x.state = .off) => ?_, fun _ => reference⟩
  · show x.position < c.modulus
    rw [modulus]; exact position
  · show y.corrections ≤ 255
    rcases corrections with same | none_
    · rw [same]; exact few
    · rw [none_]; exact Nat.zero_le _
  · simp [halted] at off

theorem AxisKept.reconfigure (k : AxisKept F) {a : AxisId} {c : AxisConfig} (halted : (s.axis a).state = .halted)
    (modulus : c.modulus = (s.axis a).modulus) (range : c.InRange) (holds : F due s) :
    F due (s.reconfigure a c) := by
  unfold State.reconfigure
  simp only
  split
  · next other => 
    exact k.takeEntries a _ (k.reference
      (configure_ok halted modulus range (fun _ => rfl) (.inr rfl) rfl) rfl holds)
  · next other =>
    have encoder : c.source = .encoder := by simpa using other
    exact k.mono (k.silenced holds (configure_ok halted modulus range (fun other => absurd encoder other) (.inl rfl) rfl))
      Set.sdiff_subset
  · next both neither =>
    refine k.axis holds (fun ok => configure_ok halted modulus range (fun other => ?_) (.inl rfl) rfl ok)
      (.inr (.inr (fun _ referenced => referenced)))
    obtain ⟨-, -, -, -, -, -, -, -, -, -, -, -, on⟩ := ok
    refine on (by simp [halted]) (fun encoder => ?_)
    exact both (by simp [encoder]) (by simpa using other)

theorem AxisKept.served (k : AxisKept F) (a : AxisId) (holds : F due s) : F due (s.served a).1 := k.takeParts a _ holds

theorem finish_modulus (a : AxisId) (s : State) : ((s.finish a).axis a).modulus = (s.axis a).modulus := by
  rw [(finish_worked a s).own.fixed]

theorem AxisKept.configAxis (k : AxisKept F) (a : AxisId) {c : AxisConfig} (l : Lines) (range : c.InRange)
    (holds : F due s) : F due (s.configAxis a c l).1 := by
  unfold State.configAxis
  simp only
  split
  · exact holds
  · exact holds
  · exact holds
  · next off =>
    refine k.axis holds (firstConfigured_ok l range) (.inr (.inr (fun ok sheltered => ?_)))
    obtain ⟨-, -, -, -, -, -, -, -, -, -, -, unreferenced, -⟩ := ok
    rw [unreferenced off] at sheltered
    exact .inr (sheltered.resolve_left (by simp))
  · next halted =>
    have ended : ((s.finish a).axis a).state = .halted := by rw [finish_state (by simp [halted]), halted]
    split
    · next modulus =>
      exact k.served a (k.reconfigure ended (by rw [finish_modulus, modulus]) range (k.finish a holds))
    · split
      · exact holds
      · next free => exact k.axis holds (remodulused_ok halted range) (.inr (.inl (by simpa using free)))

theorem AxisKept.switchAxisOff (k : AxisKept F) (a : AxisId) (holds : F due s) : F due (s.switchAxisOff a).1 := by
  unfold State.switchAxisOff
  simp only
  split
  on_goal 5 => split
  on_goal 6 => next free => exact k.axis holds switchedOff_ok (.inr (.inl (by simpa using free)))
  all_goals exact holds

/-! ### Running, halting and moving -/

/-- The record of an axis that starts to run is sound (R37). -/
theorem running_ok {x : Axis} (halted : x.state = .halted) (ok : x.Ok) : ({ x with state := .running } : Axis).Ok := by
  obtain ⟨low, high, position, index, rateLow, rateHigh, remainder, corrections, backlog, idle, rest, off, on⟩ := ok
  exact ⟨low, high, position, index, rateLow, rateHigh, remainder, corrections, backlog, nofun, fun not => absurd rfl not,
    nofun, fun _ => on (by simp [halted])⟩

theorem AxisKept.runAxis (k : AxisKept F) (a : AxisId) (holds : F due s) : F due (s.runAxis a).1 := by
  unfold State.runAxis; split
  · next halted => exact k.write (running_ok halted) rfl rfl holds
  all_goals exact holds

theorem AxisKept.takeSilentDue (k : AxisKept F) (a : AxisId) (holds : F due s) : F due (s.takeSilentDue a) := by
  unfold State.takeSilentDue; split
  · exact k.mono (k.silenceAxis a holds) Set.sdiff_subset
  · exact holds

theorem takeSilentDue_state (s : State) (a : AxisId) : ((s.takeSilentDue a).axis a).state = (s.axis a).state := by
  unfold State.takeSilentDue; split
  · rw [silenceAxis_axis, if_pos rfl]
  · rfl

/-- The record of a FAULTED axis that is halted is sound (R40). -/
theorem haltFaulted_ok {x : Axis} (faulted : x.state = .faulted) (ok : x.Ok) :
    ({ x with state := .halted } : Axis).Ok := by
  obtain ⟨low, high, position, index, rateLow, rateHigh, remainder, corrections, backlog, idle, rest, off, on⟩ := ok
  exact ⟨low, high, position, index, rateLow, rateHigh, remainder, corrections, backlog, fun _ => idle (by simp [faulted]),
    fun _ => rest (by simp [faulted]), nofun, fun _ => on (by simp [faulted])⟩

theorem AxisKept.haltFaulted (k : AxisKept F) {a : AxisId} (faulted : (s.axis a).state = .faulted) (holds : F due s) :
    F due (s.haltFaulted a) := by
  have still : (((s.finish a).takeSilentDue a).axis a).state = .faulted := by
    rw [takeSilentDue_state, finish_state (by simp [faulted]), faulted]
  exact k.takeParts a _ (k.takeEntries a _ (k.write (haltFaulted_ok still) rfl rfl
    (k.takeSilentDue a (k.finish a holds))))

/-- The record of an axis that begins to halt is sound (R38). -/
theorem halting_ok {x : Axis} (running : x.state = .running) (ok : x.Ok) :
    ({ x with state := .halting, remainder := 0 } : Axis).Ok := by
  obtain ⟨low, high, position, index, rateLow, rateHigh, remainder, corrections, backlog, idle, rest, off, on⟩ := ok
  exact ⟨low, high, position, index, rateLow, rateHigh, Nat.zero_le _, corrections, backlog, nofun, fun _ => rfl, nofun,
    fun _ => on (by simp [running])⟩

theorem AxisKept.haltAxis (k : AxisKept F) (a : AxisId) (holds : F due s) : F due (s.haltAxis a).1 := by
  unfold State.haltAxis; split
  · next running =>
    have still : ((s.finish a).axis a).state = .running := by rw [finish_state (by simp [running]), running]
    have halting := k.write (a := a) (halting_ok still) rfl rfl (k.finish a holds)
    simp only
    split
    · next none_ =>
      exact k.served a (k.reachHalted a (by rw [State.setAxis_axis_self]) (by rw [State.setAxis_axis_self]; exact none_)
        halting)
    · exact halting
  · next faulted => exact k.served a (k.haltFaulted faulted holds)
  all_goals exact holds

/-- The record that a jump leaves is sound (R41). -/
theorem jumped_ok {x : Axis} (on : x.state ≠ .off) (v : Nat) (ok : x.Ok) : (x.jumped v).Ok := by
  obtain ⟨low, high, position, index, rateLow, rateHigh, remainder, corrections, backlog, idle, rest, off, ref⟩ := ok
  refine ⟨low, high, ?_, index, rateLow, rateHigh, remainder, Nat.zero_le _, backlog, idle, rest, fun off => absurd off on,
    fun _ _ => rfl⟩
  have positive : (0 : Int) < x.modulus := by omega
  have low := Int.emod_nonneg ((v : Int) - x.backlog) (Int.ne_of_gt positive)
  have high := Int.emod_lt_of_pos ((v : Int) - x.backlog) positive
  show (((v : Int) - x.backlog) % (x.modulus : Int)).toNat < x.modulus
  omega

theorem AxisKept.jumpTo (k : AxisKept F) {a : AxisId} (on : (s.axis a).state ≠ .off) (v : Nat) (holds : F due s) :
    F due (s.jumpTo a v) := k.takeEntries a _ (k.reference (jumped_ok on v) rfl holds)

theorem AxisKept.setPosition (k : AxisKept F) (a : AxisId) (v : Nat) (holds : F due s) :
    F due (s.setPosition a v).1 := by
  have jumps (still : (s.axis a).state = .halted ∨ (s.axis a).state = .running) : F due ((s.finish a).jumpTo a v) := by
    refine k.jumpTo (fun off => ?_) v (k.finish a holds)
    rcases still with state | state <;> rw [finish_state (by simp [state]), state] at off <;> cases off
  unfold State.setPosition; split
  on_goal 4 => next halted => split; exacts [k.served a (jumps (.inl halted)), holds]
  on_goal 4 => next running => split; exacts [k.served a (jumps (.inr running)), holds]
  all_goals exact holds

theorem AxisKept.moveAxis (k : AxisKept F) (a : AxisId) (n : Int) (holds : F due s) : F due (s.moveAxis a n).1 := by
  unfold State.moveAxis
  simp only
  split
  · next moves =>
    split
    · next within => exact k.write (addCounts_ok (stepping_of_running moves.2) within) rfl rfl holds
    · exact holds
  · exact holds

theorem rate_ok {x : Axis} {r : Int} (low : -500000 ≤ r) (high : r ≤ 500000) (ok : x.Ok) :
    ({ x with rate := r } : Axis).Ok := by
  obtain ⟨mlow, mhigh, position, index, -, -, rest⟩ := ok
  exact ⟨mlow, mhigh, position, index, low, high, rest⟩

theorem AxisKept.setRate (k : AxisKept F) (a : AxisId) {r : Int} (low : -500000 ≤ r) (high : r ≤ 500000)
    (holds : F due s) : F due (s.setRate a r).1 := by
  unfold State.setRate
  simp only
  split
  · exact k.write (rate_ok low high) rfl rfl holds
  · exact holds

/-! ### Edits -/

theorem AxisKept.closes (k : AxisKept F) (a : AxisId) (h : Nat) (retired : Bool) (holds : F due s) :
    F due (s.closes a h retired).1 := by
  unfold State.closes; split
  · exact k.takeParts a _ (k.finish a holds)
  · exact holds

/-- The end of an edit: its items are taken, and the list is closed where asked. -/
theorem AxisKept.takeItems_closes (k : AxisKept F) (a : AxisId) (items : List Item) (close : Bool) (h : Nat)
    (retired : Bool) (holds : F due s) : F due ((s.takeItems a items close).closes a h retired).1 :=
  k.closes a h retired (k.scene (setList_scene _ _ _) holds)

theorem AxisKept.place (k : AxisKept F) (e : Entry) (close : Bool) (holds : F due s) : F due (s.place e close).1 := by
  unfold State.place
  simp only
  repeat' split
  on_goal 8 =>
    next h lowest =>
    exact k.takeItems_closes _ _ close h false (k.slot holds ⟨fun _ => .inr (lowestFree_lt lowest), nofun⟩)
  all_goals exact holds

theorem AxisKept.alterStaged (k : AxisKept F) {h : Nat} {e : Entry} {ok : Bool} (v : AlterValues) (close : Bool)
    (staged : s.slot h = .staged e ok) (holds : F due s) : F due (s.alterStaged h e v close).1 := by
  unfold State.alterStaged; split
  · exact holds
  · split
    · exact holds
    · split
      · exact holds
      · exact k.takeItems_closes _ _ close 0 false (k.slot holds (calm_of_inactive rfl (by rw [staged]; rfl)))

theorem AxisKept.alterLive (k : AxisKept F) (h : Nat) (e : Entry) (v : AlterValues) (close : Bool) (holds : F due s) :
    F due (s.alterLive h e v close).1 := by
  unfold State.alterLive; split
  · exact holds
  · extract_lets l merged
    split
    · exact holds
    · split
      · exact holds
      · split
        · exact k.takeItems_closes _ _ close 0 false holds
        · split
          · exact holds
          · exact k.takeItems_closes _ _ close 0 false holds

theorem AxisKept.alter (k : AxisKept F) (h : Nat) (v : AlterValues) (close : Bool) (holds : F due s) :
    F due (s.alter h v close).1 := by
  unfold State.alter; split
  on_goal 5 => next staged => split; exacts [k.alterStaged _ close staged holds, k.beginFence h holds]
  on_goal 5 => split; exacts [k.alterLive h _ _ close holds, k.beginFence h holds]
  all_goals exact holds

theorem AxisKept.retireStaged (k : AxisKept F) (h : Nat) (e : Entry) (close : Bool) (holds : F due s) :
    F due (s.retireStaged h e close).1 := by
  unfold State.retireStaged; split
  · exact holds
  · exact k.takeItems_closes _ _ close h true (k.slot holds (calm_of_empty rfl))

theorem AxisKept.retireLive (k : AxisKept F) (h : Nat) (e : Entry) (close : Bool) (holds : F due s) :
    F due (s.retireLive h e close).1 := by
  unfold State.retireLive; split
  · exact holds
  · simp only
    split
    · exact k.takeItems_closes _ _ close h true holds
    · split
      · exact holds
      · exact k.takeItems_closes _ _ close h true holds

theorem AxisKept.retire (k : AxisKept F) (h : Nat) (close : Bool) (holds : F due s) : F due (s.retire h close).1 := by
  unfold State.retire; split
  on_goal 4 => exact k.retireFenced h holds
  on_goal 4 => split; exacts [k.retireStaged h _ close holds, k.beginFence h holds]
  on_goal 4 => split; exacts [k.retireLive h _ close holds, k.beginFence h holds]
  all_goals exact holds

theorem AxisKept.setLeadOn (k : AxisKept F) (a : AxisId) (o : OutId) (lead : Int) (close : Bool) (holds : F due s) :
    F due (s.setLeadOn a o lead close).1 := by
  unfold State.setLeadOn
  simp only
  repeat' split
  on_goal 5 => exact k.takeItems_closes _ _ close 0 false holds
  on_goal 6 => exact k.takeItems_closes _ _ close 0 false holds
  all_goals exact holds

theorem AxisKept.closeList (k : AxisKept F) (a : AxisId) (holds : F due s) : F due (s.closeList a).1 := by
  unfold State.closeList
  simp only
  repeat' split
  on_goal 4 => exact k.takeItems_closes _ _ true 0 false holds
  all_goals exact holds

theorem AxisKept.discardItem (k : AxisKept F) (i : Item) (holds : F due s) : F due (s.discardItem i) := by
  unfold State.discardItem; split
  · split
    · exact k.slot holds (calm_of_empty rfl)
    · exact holds
  all_goals exact holds

theorem AxisKept.discard (k : AxisKept F) (a : AxisId) (holds : F due s) : F due (s.discard a).1 := by
  unfold State.discard
  simp only
  split
  · exact holds
  · split
    · simp only
      split
      · exact k.scene (setList_scene _ _ _) holds
      · exact holds
    · exact k.scene (setList_scene _ _ _) (k.foldl (fun _ i => k.discardItem i) _ holds)

/-! ### The reads of the table, the outputs, and the check values -/

theorem AxisKept.readEntry (k : AxisKept F) (h : Nat) (holds : F due s) : F due (s.readEntry h).1 := by
  unfold State.readEntry
  simp only
  split
  · exact holds
  · exact k.checkRead h holds

theorem AxisKept.listAxis (k : AxisKept F) (a : AxisId) (cursor : Nat × Nat) (holds : F due s) :
    F due (s.listAxis a cursor).1 := by
  have listed : ∀ (hs : List Nat) (acc : Reading), F due acc.state → F due (hs.foldl Reading.list acc).state := by
    intro hs
    induction hs with
    | nil => exact fun _ p => p
    | cons h hs ih => exact fun acc p => ih _ (k.checkRead h p)
  unfold State.listAxis
  extract_lets selected acc
  have read : F due acc.state := listed _ ⟨s, [], []⟩ holds
  clear_value acc
  exact read

theorem AxisKept.unmember (k : AxisKept F) (h : Nat) (holds : F due s) : F due (s.unmember h) := by
  unfold State.unmember; split
  · next e ok r live => exact k.slot holds (calm_of_activity live rfl)
  · next e ok l fenced => exact k.slot holds (calm_of_inactive rfl (by rw [fenced]; rfl))
  · exact k.slot holds (calm_of_empty rfl)
  all_goals exact holds

theorem AxisKept.readNotify (k : AxisKept F) (start : Nat) (holds : F due s) : F due (s.readNotify start).1 := by
  have returned : ∀ (hs : List Nat) (acc : Reading), F due acc.state → F due (hs.foldl Reading.member acc).state := by
    intro hs
    induction hs with
    | nil => exact fun _ p => p
    | cons h hs ih => exact fun acc p => ih _ (k.unmember h (k.checkRead h p))
  unfold State.readNotify
  extract_lets selected acc next
  have read : F due acc.state := returned _ ⟨s, [], []⟩ holds
  clear_value acc
  exact read

theorem calm_spoiled (s : State) (h : Nat) : s.Calm h (s.slot h).spoiled := by
  cases eq : s.slot h with
  | live e ok r => exact calm_of_activity eq rfl
  | free => exact calm_of_empty rfl
  | disabled => exact calm_of_empty rfl
  | _ => exact calm_of_inactive rfl (by rw [eq]; rfl)

theorem AxisKept.spoilCheck (k : AxisKept F) (h : Nat) (holds : F due s) : F due (s.spoilCheck h).1 := by
  unfold State.spoilCheck; split
  · next live => exact k.slot holds (live ▸ calm_spoiled s h)
  · exact holds

theorem AxisKept.takeFences (k : AxisKept F) (o : OutId) (holds : F due s) : F due (s.takeFences o) :=
  k.foldl (f := State.takeFence o) (fun _ _ p => k.foldl (fun _ t => k.runClaim t) _
    (k.rest p (fun m => .inl (List.mem_filter.2 ⟨m, rfl⟩)))) axisIds holds

theorem rebound_scene (s : State) (o : OutId) : (s.rebound o).scene = s.scene := by
  unfold State.rebound State.finishRelease
  split
  · split <;> rfl
  · rfl

theorem AxisKept.writeConfig (k : AxisKept F) (c : OutputConfig) (holds : F due s) : F due (s.writeConfig c) := by
  have taken : F due (if (s.output c.output).binding = c.binding ∧ (s.output c.output).drive = c.drive then s
      else s.takeFences c.output) := by
    split
    · exact holds
    · exact k.takeFences c.output holds
  unfold State.writeConfig
  simp only
  split
  · exact k.scene (setOutput_scene _ _ _) taken
  · exact k.scene ((rebound_scene _ _).trans (setOutput_scene _ _ _)) taken

theorem AxisKept.configOutput (k : AxisKept F) (c : OutputConfig) (holds : F due s) : F due (s.configOutput c).1 := by
  unfold State.configOutput
  repeat' split
  on_goal 4 => exact k.writeConfig c holds
  all_goals exact holds

theorem beginRelease_scene (s : State) : s.beginRelease.scene = s.scene := by
  unfold State.beginRelease State.finishRelease
  split <;> rfl

/-! ### The blocks -/

/-- The block of a request keeps a predicate. -/
abbrev BlockKeepsIn (P : State → Prop) (block : Handler) : Prop := ∀ args s, P s → P (block args s).1

/-- Every block keeps `F`. -/
theorem AxisKept.block (k : AxisKept F) (code : Byte) (l : Lines) : BlockKeepsIn (F due) (blockOf code l) := by
  unfold blockOf
  split
  · intro args s holds
    exact holds
  · intro args s holds
    exact holds
  · intro args s holds
    unfold ackAttentionBlock; split <;> exact holds
  · intro args s holds
    unfold setAttentionMaskBlock; split <;> exact holds
  · intro args s holds
    unfold configAxisBlock; split
    · exact holds
    · next decoded => exact k.configAxis _ l (decodeConfigAxis_inRange decoded) holds
    · exact k.switchAxisOff _ holds
  · intro args s holds
    unfold runAxisBlock; split
    · exact holds
    · exact k.runAxis _ holds
  · intro args s holds
    unfold haltAxisBlock; split
    · exact holds
    · exact k.haltAxis _ holds
  · intro args s holds
    unfold setPositionBlock; split
    · exact holds
    · exact k.setPosition _ _ holds
  · intro args s holds
    unfold moveAxisBlock; split
    · exact k.moveAxis _ _ holds
    · exact holds
  · intro args s holds
    unfold setRateBlock; split
    · next within => exact k.setRate _ (withinInt_eq_some within).1 (withinInt_eq_some within).2 holds
    · exact holds
  · intro args s holds
    unfold readAxisBlock; split <;> exact holds
  · intro args s holds
    unfold configOutputBlock; split
    · exact holds
    · exact k.configOutput _ holds
  · intro args s holds
    unfold setOutputModeBlock; split
    · exact k.scene (setOutput_scene _ _ _) holds
    · exact holds
  · intro args s holds
    unfold clearOutputFaultBlock; split
    · exact holds
    · split
      · exact holds
      · exact k.scene (setOutput_scene _ _ _) holds
  · intro args s holds
    unfold readOutputBlock; split <;> exact holds
  · intro args s holds
    unfold placeBlock; split
    · exact holds
    · exact k.place _ _ holds
  · intro args s holds
    unfold alterBlock; split
    · exact holds
    · exact k.alter _ _ _ holds
  · intro args s holds
    unfold retireBlock; split
    · exact holds
    · exact k.retire _ _ holds
  · intro args s holds
    unfold setLeadBlock; split
    · exact holds
    · split
      · exact holds
      · exact k.setLeadOn _ _ _ _ holds
  · intro args s holds
    unfold closeListBlock; split
    · exact holds
    · exact k.closeList _ holds
  · intro args s holds
    unfold discardBlock; split
    · exact holds
    · exact k.discard _ holds
  · intro args s holds
    unfold readPendingBlock; split <;> exact holds
  · intro args s holds
    unfold readEntryBlock; split
    · exact holds
    · exact k.readEntry _ holds
  · intro args s holds
    unfold listAxisBlock; split
    · split
      · exact holds
      · split
        · exact holds
        · exact k.listAxis _ _ holds
    · exact holds
  · intro args s holds
    unfold readNotifyBlock; split
    · exact holds
    · exact k.readNotify _ holds
  · intro args s holds
    exact k.scene (enterSafe_scene s) holds
  · intro args s holds
    unfold releaseSafeBlock; split
    · split
      · exact holds
      · exact k.scene (beginRelease_scene s) holds
    all_goals exact holds
  · intro args s holds
    exact holds
  · intro args s holds
    exact k.scene (s := s) rfl holds
  · intro args s holds
    unfold tableTestBlock; split <;> exact holds
  · intro args s holds
    unfold spoilCheckBlock; split
    · exact holds
    · exact k.spoilCheck _ holds
  · intro args s holds
    exact holds

/-! ### The port -/

theorem AxisKept.runBlock (k : AxisKept F) (code : Byte) (l : Lines) (args : List Byte) (pace : Pace)
    (holds : F due s) : F due (s.runBlock code (blockOf code l) args pace) := by
  unfold State.runBlock
  simp only
  refine k.scene (s := (State.goOn _ _).1) rfl (k.goOn _ (k.block code l args _ (k.restop pace.stops ?_)))
  split
  · exact holds
  · exact k.endAllApplying holds

theorem AxisKept.carryOut (k : AxisKept F) (code tag : Byte) (args : List Byte) (pace : Pace) (l : Lines)
    (holds : F due s) : F due (s.carryOut code tag args pace (blockOf code l) l) := by
  have accepted (w : Work) : F due (s.accept code tag w) := k.scene (s := s) rfl holds
  unfold State.carryOut; split
  · exact accepted _
  · split
    · simp only
      split
      · exact accepted _
      · exact k.runBlock code l args pace (accepted _)
    · exact accepted _

/-- A request frame, whatever the port makes of it (R177, R178); `l'` are the levels it carries. -/
theorem AxisKept.request (k : AxisKept F) (code : Byte) (rest : List Byte) (pace : Pace) (l : Lines)
    (holds : F due s) : F due (s.request code rest pace (blockOf code l) l) := by
  have ended : F due s.endTransaction := k.scene (s := s) rfl holds
  unfold State.request; split
  · simp only
    split
    · exact k.scene (s := s.endTransaction) rfl ended
    · exact k.scene (s := s.endTransaction) rfl ended
    · split
      · exact k.scene (s := s.endTransaction) rfl ended
      · split
        · exact ended
        · exact k.carryOut code _ _ pace l ended
  · exact ended

theorem takeBreak_scene (s : State) : s.takeBreak.scene = s.scene := by
  unfold State.takeBreak; split <;> rfl

/-- The request that executes goes on (R180). -/
theorem AxisKept.takeWork (k : AxisKept F) (holds : F due s) : F due s.takeWork := by
  unfold State.takeWork; split
  · exact k.runBlock _ _ _ _ holds
  · exact k.scene (s := (s.resumeWork _).1) rfl (k.resumeWork _ holds)
  · exact holds

theorem AxisKept.background (k : AxisKept F) (holds : F due s) : F due s.background := by
  unfold State.background; split
  · exact k.finish _ holds
  · exact k.takeWork holds

theorem complete_scene (s : State) : s.complete.scene = s.scene := by
  unfold State.complete; split
  · next effect _ => cases effect <;> rfl
  · next effect _ => cases effect <;> rfl
  · rfl

/-! ### The events -/

/-- A command answers a next state that satisfies `P`. -/
abbrev LeadsTo (P : State → Prop) (answer : Host.Outcome State Fault Refusal) : Prop := ∃ t, answer = .next t ∧ P t

theorem AxisKept.setLines (k : AxisKept F) (a : AxisId) (l : Lines) (holds : F due s) : F due (s.setLines a l) :=
  k.write (a := a) (y := { s.axis a with lines := l }) (fun ok => ok) rfl rfl holds

theorem AxisKept.linesChange (k : AxisKept F) (a : AxisId) (l : Lines) (order : FaultOrder) (holds : F due s) :
    F due (s.linesChange a l order) := by
  have moved : F due (s.setLines a l) := k.setLines a l holds
  unfold State.linesChange
  simp only
  split
  · next counts =>
    have running : (s.axis a).state = .running := by simp [Axis.countsEncoder] at counts; exact counts.1
    split
    · exact moved
    · exact k.addCounts a _ order (stepping_of_running (by simpa [State.setLines] using running)) moved
    · exact k.axisFault a _ order moved
  · exact moved

theorem corrections_ok {x : Axis} {n : Nat} (few : n ≤ 255) (ok : x.Ok) : ({ x with corrections := n } : Axis).Ok := by
  obtain ⟨low, high, position, index, rateLow, rateHigh, remainder, -, rest⟩ := ok
  exact ⟨low, high, position, index, rateLow, rateHigh, remainder, few, rest⟩

theorem AxisKept.checkIndex (k : AxisKept F) {a : AxisId} (index : Nat) (order : FaultOrder)
    (running : (s.axis a).state = .running) (holds : F due s) : F due (s.checkIndex a index order) := by
  unfold State.checkIndex
  simp only
  split
  · exact holds
  · split
    · split
      · exact k.addCounts a _ order (stepping_of_running (by simpa using running))
          (k.write (corrections_ok (Nat.min_le_left _ _)) rfl rfl holds)
      · exact k.axisFault a _ order holds
    · exact k.axisFault a _ order holds

theorem AxisKept.indexEvent (k : AxisKept F) {a : AxisId} (index : Nat) (order : FaultOrder)
    (running : (s.axis a).state = .running) (holds : F due s) : F due (s.indexEvent a index order) := by
  unfold State.indexEvent; split
  · exact k.checkIndex index order running holds
  · exact k.takeEntries a _ (k.scene (s := s.setAxis a ((s.axis a).jumped index)) rfl
      (k.reference (jumped_ok (by simp [running]) index) rfl holds))

/-- The command of a line, of a count or of the rate generator keeps `F`. -/
theorem AxisKept.execIndexEvent (k : AxisKept F) (a : AxisId) (samples : Nat) (order : FaultOrder) (holds : F due s) :
    LeadsTo (F due) (execIndexEvent a samples order s) := by
  unfold Machine.execIndexEvent
  simp only
  split
  · split
    · next counts _ =>
      have running : (s.axis a).state = .running := by simp [Axis.countsEncoder] at counts; exact counts.1
      refine ⟨_, rfl, k.scene (s := State.indexEvent _ a _ order) rfl
        (k.indexEvent _ order ?_ (k.restop order.stops (k.setLines a _ (k.finish a holds))))⟩
      show (((s.finish a).setLines a _).axis a).state = .running
      rw [State.setLines, State.setAxis_axis_self]
      exact (finish_state (by simp [running])).trans running
    · exact ⟨_, rfl, k.setLines a _ (k.endApplying a holds)⟩
  · exact ⟨_, rfl, holds⟩

theorem remainder_ok {x : Axis} (n : Int) (running : x.state = .running) (ok : x.Ok) :
    ({ x with remainder := n.tmod 10000 } : Axis).Ok := by
  obtain ⟨low, high, position, index, rateLow, rateHigh, -, corrections, backlog, idle, -, rest⟩ := ok
  refine ⟨low, high, position, index, rateLow, rateHigh, ?_, corrections, backlog, idle, fun not => absurd running not, rest⟩
  show (n.tmod 10000).natAbs ≤ 9999
  rw [Int.natAbs_tmod]
  exact Nat.le_of_lt_succ (Nat.mod_lt _ (by decide))

theorem AxisKept.rateTurn (k : AxisKept F) (turn : AxisId × FaultOrder) (holds : F due s) : F due (s.rateTurn turn) := by
  have ended := k.endApplying turn.1 holds
  unfold State.rateTurn
  simp only
  split
  · next runs => exact k.addOneByOne turn.1 _ turn.2 _ (k.write (remainder_ok _ runs.1) rfl rfl ended)
  · exact ended

theorem AxisKept.execStep (k : AxisKept F) (turn : ChannelTurn) (holds : F due s) :
    LeadsTo (F due) (execStep turn s) := by
  unfold Machine.execStep
  simp only
  split
  · exact ⟨_, rfl, k.stopping turn.stops (fun t p => k.resume _ p) holds⟩
  · split
    · exact ⟨_, rfl, k.stopping turn.stops (fun t p => k.beginStep _ p) holds⟩
    · exact ⟨_, rfl, holds⟩

theorem AxisKept.tableTestVisit (k : AxisKept F) (passes : Bool) (holds : F due s) :
    LeadsTo (F due) (execTableTestVisit passes s) := by
  unfold execTableTestVisit; split
  · next h rest _ _ _ _ =>
    refine ⟨_, rfl, k.scene (s := s.setSlot h ((s.slot h).visited passes)) rfl (k.slot holds ?_)⟩
    unfold Slot.visited; split
    · exact calm_of_empty (by cases passes <;> rfl)
    · cases eq : s.slot h with
      | live e ok r => exact calm_of_activity eq rfl
      | free => exact calm_of_empty rfl
      | disabled => exact calm_of_empty rfl
      | _ => exact calm_of_inactive rfl (by rw [eq]; rfl)
  · exact ⟨_, rfl, holds⟩

end

/-! ### The commands -/

/-- A predicate that every piece of work keeps, and that a device reset and its end keep. -/
structure AxisStepKept (F : Set AxisId → State → Prop) : Prop where
  kept : AxisKept F
  reset : F ∅ State.reset
  lines : ∀ {s : State} (l : Vector Lines 4), F ∅ s → F ∅ (s.loadLines l)

section
variable {F : Set AxisId → State → Prop} {s : State}

/-- Every command keeps `F`. -/
theorem AxisStepKept.exec (k : AxisStepKept F) (c : Instr) (holds : F ∅ s) : LeadsTo (F ∅) (exec c s) := by
  have kept := k.kept
  have same {t : State} (scene : t.scene = s.scene) : LeadsTo (F ∅) (.next t) :=
    ⟨t, rfl, kept.scene scene holds⟩
  have request (code : Byte) (rest : List Byte) (pace : Pace) (l : Lines) :
      LeadsTo (F ∅) (.next (s.request code rest pace (blockOf code l) l)) :=
    ⟨_, rfl, kept.request code rest pace l holds⟩
  cases c with
  | deviceReset => exact ⟨_, rfl, kept.scene (s := State.reset) rfl k.reset⟩
  | outgoingFrame =>
    show LeadsTo (F ∅) (execOutgoingFrame s)
    unfold execOutgoingFrame; split <;> exact same rfl
  | poll rest => exact same rfl
  | portBreak rest => exact same (takeBreak_scene s)
  | unknownRequest code rest =>
    show LeadsTo (F ∅) (execUnknownRequest code rest s)
    unfold execUnknownRequest; split
    · exact same rfl
    · exact same rfl
    · exact same (takeBreak_scene s)
    · exact request _ _ _ _
  | requestCompletion => exact ⟨_, rfl, kept.scene (complete_scene _) (kept.takeWork holds)⟩
  | nop sent => exact request 0x01#8 sent.rest sent.pace _
  | readStatus sent => exact request 0x02#8 sent.rest sent.pace _
  | ackAttention sent => exact request 0x03#8 sent.rest sent.pace _
  | setAttentionMask sent => exact request 0x04#8 sent.rest sent.pace _
  | configAxis sent lines => exact request 0x10#8 sent.rest sent.pace lines
  | runAxis sent => exact request 0x11#8 sent.rest sent.pace _
  | haltAxis sent => exact request 0x12#8 sent.rest sent.pace _
  | setPosition sent => exact request 0x13#8 sent.rest sent.pace _
  | moveAxis sent => exact request 0x14#8 sent.rest sent.pace _
  | setRate sent => exact request 0x15#8 sent.rest sent.pace _
  | readAxis sent => exact request 0x16#8 sent.rest sent.pace _
  | configOutput sent => exact request 0x20#8 sent.rest sent.pace _
  | setOutputMode sent => exact request 0x21#8 sent.rest sent.pace _
  | clearOutputFault sent => exact request 0x22#8 sent.rest sent.pace _
  | readOutput sent => exact request 0x23#8 sent.rest sent.pace _
  | place sent => exact request 0x30#8 sent.rest sent.pace _
  | alter sent => exact request 0x31#8 sent.rest sent.pace _
  | retire sent => exact request 0x32#8 sent.rest sent.pace _
  | setLead sent => exact request 0x33#8 sent.rest sent.pace _
  | closeList sent => exact request 0x34#8 sent.rest sent.pace _
  | discard sent => exact request 0x35#8 sent.rest sent.pace _
  | readPending sent => exact request 0x36#8 sent.rest sent.pace _
  | readEntry sent => exact request 0x38#8 sent.rest sent.pace _
  | listAxis sent => exact request 0x39#8 sent.rest sent.pace _
  | readNotify sent => exact request 0x40#8 sent.rest sent.pace _
  | enterSafe sent => exact request 0x50#8 sent.rest sent.pace _
  | releaseSafe sent => exact request 0x51#8 sent.rest sent.pace _
  | readFaultReport sent => exact request 0x60#8 sent.rest sent.pace _
  | clearFaultReport sent => exact request 0x61#8 sent.rest sent.pace _
  | tableTest sent => exact request 0x62#8 sent.rest sent.pace _
  | tableTestVisit passes => exact kept.tableTestVisit passes holds
  | spoilCheck sent => exact request 0x63#8 sent.rest sent.pace _
  | encoderCount a b c samples order =>
    show LeadsTo (F ∅) (execEncoderCount a b c samples order s)
    unfold execEncoderCount; split
    · exact ⟨_, rfl, kept.linesChange a _ order (kept.endApplying a holds)⟩
    · exact ⟨_, rfl, holds⟩
  | indexEvent a samples order => exact kept.execIndexEvent a samples order holds
  | rateInterval turns => exact ⟨_, rfl, kept.foldl (fun _ turn => kept.rateTurn turn) (rateTurns turns) holds⟩
  | axisSilentEnd a =>
    show LeadsTo (F ∅) (execAxisSilentEnd a s)
    unfold execAxisSilentEnd; split
    · exact ⟨_, rfl, kept.mono (kept.silenceAxis a (kept.finish a holds)) Set.sdiff_subset⟩
    · exact ⟨_, rfl, holds⟩
  | step turn => exact kept.execStep turn holds
  | pulseExpiry h elapsed =>
    show LeadsTo (F ∅) (execPulseExpiry h elapsed s)
    unfold execPulseExpiry; split
    · split
      · exact ⟨_, rfl, kept.endActivity h holds⟩
      · exact ⟨_, rfl, holds⟩
    · exact ⟨_, rfl, holds⟩
  | stopEvent samples =>
    show LeadsTo (F ∅) (execStopEvent samples s)
    unfold execStopEvent; split
    · exact same ((enterSafe_scene _).trans rfl)
    · exact same rfl
  | stopInactive samples =>
    show LeadsTo (F ∅) (execStopInactive samples s)
    unfold execStopInactive; split <;> exact same rfl
  | memoryDisturbance h => exact ⟨_, rfl, kept.slot holds (calm_spoiled s h)⟩
  | recognizedLineChange a l samples order =>
    show LeadsTo (F ∅) (execRecognizedLineChange a l samples order s)
    unfold execRecognizedLineChange; split
    · exact ⟨_, rfl, kept.linesChange a l order (kept.endApplying a holds)⟩
    · exact ⟨_, rfl, holds⟩
  | endOfReset l stop =>
    show LeadsTo (F ∅) (execEndOfReset l stop s)
    unfold execEndOfReset; split
    · exact ⟨_, rfl, k.lines l (kept.scene (s := s) rfl holds)⟩
    · exact same rfl
  | portServiceDelayEnd =>
    show LeadsTo (F ∅) (execPortServiceDelayEnd s)
    unfold execPortServiceDelayEnd; split <;> exact same rfl

/-- Every step keeps `F`. -/
theorem AxisStepKept.step (k : AxisStepKept F) {t : State} (holds : F ∅ s) (taken : step s = .next t) : F ∅ t := by
  have leads : LeadsTo (F ∅) (Machine.step s) := by
    unfold Machine.step; split
    · exact ⟨_, rfl, k.kept.background holds⟩
    · exact k.exec _ (k.kept.scene (s := s) rfl holds)
  obtain ⟨u, eq, kept⟩ := leads
  rw [taken] at eq
  cases eq
  exact kept

end

end Sys2Proof.Machine
end

section
/-! SUPPORT. The soundness of the axis records and the activity of the entries, each a case of `AxisStepKept`. -/

namespace Sys2Proof.Machine

/-! ### The axis records -/

/-- A write of a sound record keeps every record sound. -/
theorem axesOk_setAxis {s : State} {a : AxisId} {y : Axis} (holds : s.AxesOk) (sound : (s.axis a).Ok → y.Ok) :
    (s.setAxis a y).AxesOk := by
  intro b
  rw [State.setAxis_axis]
  split
  · exact sound (holds a)
  · exact holds b

theorem axesOk_of_axes {s t : State} (same : t.axes = s.axes) (holds : s.AxesOk) : t.AxesOk := by
  intro b
  rw [axis_of_axes same]
  exact holds b

theorem axes_of_scene {s t : State} (same : t.scene = s.scene) : t.axes = s.axes := by
  simp only [State.scene, Prod.mk.injEq] at same
  exact same.2.1

theorem axesOk_silenceAxis {s : State} (a : AxisId) (holds : s.AxesOk) : (s.silenceAxis a).AxesOk :=
  axesOk_of_axes (silenceAxis_axes s a) (axesOk_setAxis holds id)

theorem axesOk_kept : AxisKept (fun _ => State.AxesOk) where
  scene same holds := axesOk_of_axes (axes_of_scene same) holds
  slot {_ s _ _} holds _ := axesOk_of_axes (s := s) rfl holds
  rest {_ s _ _} holds _ := axesOk_of_axes (s := s) rfl holds
  axis holds sound _ := axesOk_setAxis holds sound
  silenced holds sound := axesOk_silenceAxis _ (axesOk_setAxis holds sound)
  left holds _ := holds
  waits _ holds := axesOk_setAxis holds (fun ok => ok)
  mono holds _ := holds

theorem loadLines_axis (s : State) (l : Vector Lines 4) (a : AxisId) :
    (s.loadLines l).axis a = { s.axis a with lines := l[a] } := by
  simp [State.axis, State.loadLines]

theorem axesOk_loadLines {s : State} (l : Vector Lines 4) (holds : s.AxesOk) : (s.loadLines l).AxesOk := by
  intro a
  rw [loadLines_axis]
  exact holds a

theorem axesOk_stepKept : AxisStepKept (fun _ => State.AxesOk) where
  kept := axesOk_kept
  reset := reset_axesOk
  lines l holds := axesOk_loadLines l holds

/-! ### The activity of the entries -/

/-- Every slot with an entry is one of the 512, and every ACTIVE entry is of a REFERENCED axis, of one whose silent end
waits or is left in its channel, or of one of the axes `due` (R1, R29, R79). -/
def State.ActiveBut (s : State) (due : Set AxisId) : Prop :=
  (∀ h, (s.slot h).entry?.isSome = true → h < Config.slotCount)
    ∧ ∀ h, (s.slot h).isActive = true → ∀ e ∈ (s.slot h).entry?,
      (s.axis e.axis).referenced = true ∨ (s.axis e.axis).silentDue = true
        ∨ Task.silentEnd ∈ (s.channel e.axis).rest ∨ e.axis ∈ due

theorem activeBut_setSlot {s : State} {due : Set AxisId} {h : Nat} {v : Slot} (holds : s.ActiveBut due)
    (calm : s.Calm h v) : (s.setSlot h v).ActiveBut due := by
  obtain ⟨below, active⟩ := holds
  refine ⟨fun k => ?_, fun k => ?_⟩
  · rw [State.setSlot_slot]
    split
    · next same => subst same; exact fun used => (calm.1 used).elim (below h) id
    · exact below k
  · rw [State.setSlot_slot]
    split
    · intro acts e m
      rcases calm.2 acts e m with referenced | ⟨was, entry⟩
      · exact .inl referenced
      · exact active h was e entry
    · exact active k

theorem activeBut_setAxis {s : State} {due : Set AxisId} {a : AxisId} {y : Axis} (holds : s.ActiveBut due)
    (ok : (s.axis a).Ok) (shelters : s.Shelters due a y) : (s.setAxis a y).ActiveBut due := by
  obtain ⟨below, active⟩ := holds
  refine ⟨below, fun h acts e m => ?_⟩
  have was := active h acts e m
  rw [State.setAxis_axis]
  split
  · next same =>
    subst same
    rcases shelters with due | free | sheltered
    · exact .inr (.inr (.inr due))
    · have used : (s.slot h).entry? = some e := m
      simp only [State.axisHasDependents, Bool.or_eq_false_iff, List.any_eq_false, mem_handles] at free
      exact absurd (free.1 h (below h (by rw [used]; rfl))) (by simp [used])
    · rcases was with referenced | waits | left
      · exact (sheltered ok (.inl referenced)).imp_right .inl
      · exact (sheltered ok (.inr waits)).imp_right .inl
      · exact .inr (.inr left)
  · exact was

theorem liveOf_spec {s : State} {a : AxisId} {h : Nat} : h ∈ s.liveOf a ↔
    h < Config.slotCount ∧ (s.slot h).liveWith (fun e => e.axis == a) = true := by
  simp [State.liveOf, mem_handles]

theorem silenced_silenced (v : Slot) : v.silenced.silenced = v.silenced := by cases v <;> rfl

/-- The slots after silent ends: those named are IDLE (R78). -/
theorem foldl_endActivity_slot (hs : List Nat) (s : State) (k : Nat) :
    (hs.foldl State.endActivity s).slot k = if k ∈ hs then (s.slot k).silenced else s.slot k := by
  induction hs generalizing s with
  | nil => rfl
  | cons h hs ih =>
    rw [List.foldl_cons, ih, endActivity_slot]
    by_cases same : h = k
    · subst same
      simp [silenced_silenced]
    · simp [same, Ne.symm same]

/-- The slots after the silent end of an axis (R79). -/
theorem silenceAxis_slot (s : State) (a : AxisId) (k : Nat) : (s.silenceAxis a).slot k =
    if k < Config.slotCount ∧ (s.slot k).liveWith (fun e => e.axis == a) = true then (s.slot k).silenced
    else s.slot k := by
  simp only [State.silenceAxis, State.setAxis_slot, foldl_endActivity_slot, liveOf_spec]

theorem silenced_inactive (v : Slot) : v.silenced.isActive = false := by cases v <;> rfl

theorem silenced_entry (v : Slot) : v.silenced.entry? = v.entry? := by cases v <;> rfl

theorem silenceAxis_entry (s : State) (a : AxisId) (k : Nat) :
    ((s.silenceAxis a).slot k).entry? = (s.slot k).entry? := by
  rw [silenceAxis_slot]
  split
  · exact silenced_entry _
  · rfl

@[simp] theorem silenceAxis_channels (s : State) (a b : AxisId) : ((s.silenceAxis a).channel b).rest = (s.channel b).rest := by
  have same := silenceAxis_way b a s
  simp only [State.way, Prod.mk.injEq] at same
  exact same.2

/-- After the silent end of an axis that may have lost its reference its entries are IDLE (R79). -/
theorem activeBut_silenced {s : State} {due : Set AxisId} (a : AxisId) (y : Axis) (holds : s.ActiveBut due) :
    ((s.setAxis a y).silenceAxis a).ActiveBut (due \ {a}) := by
  obtain ⟨below, active⟩ := holds
  refine ⟨fun h used => below h (by rwa [silenceAxis_entry] at used), fun h acts e m => ?_⟩
  rw [silenceAxis_entry] at m
  have used : (s.slot h).entry? = some e := m
  have under : h < Config.slotCount := below h (by rw [used]; rfl)
  rw [silenceAxis_slot] at acts
  split at acts
  · rw [silenced_inactive] at acts; cases acts
  · next other =>
    replace acts : (s.slot h).isActive = true := acts
    have ne : e.axis ≠ a := by
      rintro rfl
      refine other ⟨under, ?_⟩
      show (s.slot h).liveWith (fun e' => e'.axis == e.axis) = true
      cases eq : s.slot h with
      | live e' ok r => rw [eq] at used; cases used; simp [Slot.liveWith]
      | _ => rw [eq] at acts; cases acts
    rw [silenceAxis_axis, if_neg (Ne.symm ne), State.setAxis_axis, if_neg (Ne.symm ne), silenceAxis_channels]
    exact (active h acts e used).imp_right (fun rest => rest.imp_right (fun rest => rest.imp_right (fun m => ⟨m, ne⟩)))

/-- The axis records are sound, and the entries of UNREFERENCED axes but for those of `due` are IDLE. -/
def State.Referenced (due : Set AxisId) (s : State) : Prop := s.AxesOk ∧ s.ActiveBut due

theorem referenced_kept : AxisKept State.Referenced where
  scene {due s t} same holds := by
    refine ⟨axesOk_kept.scene (due := due) same holds.1, ?_⟩
    obtain ⟨below, active⟩ := holds.2
    simp only [State.scene, Prod.mk.injEq] at same
    obtain ⟨table, axes, rests⟩ := same
    have slot : ∀ h, t.slot h = s.slot h := fun h => by unfold State.slot; rw [table]
    refine ⟨fun h => by rw [slot]; exact below h, fun h => ?_⟩
    rw [slot]
    intro acts e m
    rw [axis_of_axes axes, congrFun rests e.axis]
    exact active h acts e m
  slot holds calm := ⟨holds.1, activeBut_setSlot holds.2 calm⟩
  rest {due s a c} holds keeps := by
    obtain ⟨below, active⟩ := holds.2
    refine ⟨holds.1, below, fun h acts e m => ?_⟩
    rw [State.setChannel_channel]
    have was := active h acts e m
    split
    · next same =>
      subst same
      rcases was with referenced | waits | left | due
      · exact .inl referenced
      · exact .inr (.inl waits)
      · exact .inr (.inr (keeps left))
      · exact .inr (.inr (.inr due))
    · exact was
  axis {due s a y} holds sound shelters :=
    ⟨axesOk_setAxis holds.1 sound, activeBut_setAxis holds.2 (holds.1 a) shelters⟩
  silenced {due s a y} holds sound :=
    ⟨axesOk_silenceAxis a (axesOk_setAxis holds.1 sound), activeBut_silenced a y holds.2⟩
  left {due s a} holds left := by
    obtain ⟨below, active⟩ := holds.2
    refine ⟨holds.1, below, fun h acts e m => ?_⟩
    by_cases same : e.axis = a
    · exact .inr (.inr (.inl (same ▸ left)))
    · exact (active h acts e m).imp_right (fun rest => rest.imp_right (fun rest => rest.imp_right (fun m => ⟨m, same⟩)))
  waits {due s} a holds := by
    obtain ⟨below, active⟩ := holds.2
    refine ⟨axesOk_setAxis holds.1 (fun ok => ok), below, fun h acts e m => ?_⟩
    rw [State.setAxis_axis]
    split
    · exact .inr (.inl rfl)
    · next other =>
      exact (active h acts e m).imp_right
        (fun rest => rest.imp_right (fun rest => rest.imp_right (fun m => ⟨m, Ne.symm other⟩)))
  mono {due due' s} holds wider := by
    obtain ⟨below, active⟩ := holds.2
    exact ⟨holds.1, below, fun h acts e m =>
      (active h acts e m).imp_right (fun rest => rest.imp_right (fun rest => rest.imp_right (fun m => wider m)))⟩

theorem referenced_stepKept : AxisStepKept State.Referenced where
  kept := referenced_kept
  reset := ⟨reset_axesOk, fun _ used => by simp [reset_slot, Slot.entry?] at used,
    fun _ acts => by simp [reset_slot, Slot.isActive] at acts⟩
  lines {s} l holds := by
    obtain ⟨below, active⟩ := holds.2
    refine ⟨axesOk_loadLines l holds.1, below, fun h acts e m => ?_⟩
    rw [loadLines_axis]
    exact active h acts e m

/-- The activity of the entries, as the obligation states it. -/
theorem activityOk_iff (s : State) : s.ActivityOk ↔ s.TableOk ∧ s.Referenced ∅ := by
  constructor
  · rintro ⟨table, axes, active⟩
    refine ⟨table, axes, fun h used => Table.wf_lt_of_get_ne table.1 (fun free => ?_), fun h acts e m => ?_⟩
    · have slot : s.slot h = .free := free
      rw [slot] at used; cases used
    · cases eq : s.slot h with
      | live e' ok r =>
        rw [eq] at m acts
        cases m
        have was := active h e ok r eq (by simpa [Slot.isActive] using acts)
        exact was.imp_right (fun rest => rest.imp_right .inl)
      | _ => rw [eq] at acts; cases acts
  · rintro ⟨table, axes, -, active⟩
    refine ⟨table, axes, fun h e ok r live acts => ?_⟩
    have was := active h (by rw [live]; simpa [Slot.isActive] using acts) e (by rw [live]; rfl)
    simpa using was

end Sys2Proof.Machine

open Sys2Proof Sys2Proof.Machine

/-- Settles O54: each write of an axis record is sound where its command makes it, and a piece of work makes no other. -/
theorem stepsKeepAxisRecordsSound : Obligations.StepsKeepAxisRecordsSound := by
  unfold Obligations.StepsKeepAxisRecordsSound
  exact fun s t holds taken => axesOk_stepKept.step holds taken

/-- Settles O55: an entry becomes ACTIVE on a REFERENCED axis alone, and an axis that loses its reference ends the activity
of its entries with it, or leaves that to its channel. -/
theorem stepsKeepUnreferencedAxesIdle : Obligations.StepsKeepUnreferencedAxesIdle := by
  unfold Obligations.StepsKeepUnreferencedAxesIdle
  intro s t holds taken
  obtain ⟨table, referenced⟩ := (activityOk_iff s).1 holds
  exact (activityOk_iff t).2 ⟨stepsKeepTheTableCanonical s t table taken, referenced_stepKept.step referenced taken⟩

end

section
/-! SUPPORT. The axis requests: what each block makes of its arguments, and the obligations on the requests whose block
asks no channel for work; the end of a reset. -/

namespace Sys2Proof.Machine

/-! ### A request whose block works at once -/

/-- What a request without a stop leaves: its block's state, what its work goes on to, and the outcome of that. -/
theorem request_worked {s t u : State} {code tag : Byte} {args : List Byte} {block : Handler} {l : Lines} {n : Nat}
    {left done : Work} (known : argLength code = some n) (len : args.length = n) (short : n ≤ 60)
    (ready : s.ReadyAlone tag)
    (worked : block args (s.answers code tag (.waiting args l .prompt))
      = (t.answers code tag (.waiting args l .prompt), left))
    (wentOn : t.goOn (left.inOrder []) = (u, done)) (stops : u.stops = []) :
    s.request code (frameRest code tag args) .prompt block l = u.answers code tag done := by
  have h := request_now s code tag args [] block l n .prompt rfl known len short ready.1
  rw [List.append_nil] at h
  have now : ({ s with stops := Pace.prompt.stops } : State) = s := by
    rw [show Pace.prompt.stops = s.stops from ready.1.2.2.2.2.symm]
  have kept : ({ u with stops := s.stops } : State) = u := by rw [ready.1.2.2.2.2, ← stops]
  rw [h, runBlock_answers s t u code tag _ left done block args .prompt (.inr ready.2) (by rw [now]; exact worked) wentOn,
    kept]

/-- A request whose block has its outcome at once, in the state `t` that it makes of the state it is handed. -/
theorem request_settled {s t : State} {code tag : Byte} {args : List Byte} {block : Handler} {l : Lines} {n : Nat}
    {done : Work} (known : argLength code = some n) (len : args.length = n) (short : n ≤ 60) (ready : s.ReadyAlone tag)
    (worked : block args (s.answers code tag (.waiting args l .prompt))
      = (t.answers code tag (.waiting args l .prompt), done))
    (wentOn : t.goOn (done.inOrder []) = (t, done)) (stops : t.stops = []) :
    s.request code (frameRest code tag args) .prompt block l = t.answers code tag done :=
  request_worked known len short ready worked wentOn stops

theorem stops_of_ready {s : State} {tag : Byte} (ready : s.ReadyAlone tag) : s.stops = [] := ready.1.2.2.2.2

theorem free_of_ready {s : State} {tag : Byte} {a : AxisId} (ready : s.ReadyAlone tag) (quiet : s.busy a = false) :
    Free a s := (free_iff a s).2 ⟨stops_of_ready ready, by simpa [State.busy] using quiet⟩

/-- The axis number that a request carries in its first byte. -/
theorem axisOf_first (a : AxisId) (more : List Byte) : axisOf (natAt ([byteOf a] ++ more) 0 1) = some a := by
  rw [show natAt ([byteOf a] ++ more) 0 1 = (byteOf a).toNat from natAt_byte_append [] more 0 (byteOf a) rfl]
  exact axisOf_byteOf a

theorem axisOf_above {b : Byte} (above : 4 ≤ b.toNat) (more : List Byte) : axisOf (natAt ([b] ++ more) 0 1) = none := by
  rw [show natAt ([b] ++ more) 0 1 = b.toNat from natAt_byte_append [] more 0 b rfl, axisOf, dif_neg (by omega)]

/-! ### CONFIG_AXIS -/

/-- Values out of range are refused by the decoding (R33, R187). -/
theorem decodeConfigAxis_outOfRange (a : AxisId) (c : AxisConfig) (modulus : c.modulus < 16777216)
    (index : ∀ p ∈ c.indexPoint, p < 65536) (out : ¬ c.InRange) : decodeConfigAxis (configAxisArgs a c) = none := by
  have field : natAt (configAxisArgs a c) 3 3 = c.modulus :=
    natAt_bytesOf_append [byteOf a, 0#8, c.source.code] _ 3 3 c.modulus rfl (by simpa using modulus)
  have presence : natAt (configAxisArgs a c) 6 1 = (boolByte c.indexPoint.isSome).toNat :=
    natAt_byte_append ([byteOf a, 0#8, c.source.code] ++ bytesOf 3 c.modulus) _ 6 _ (by simp [bytesOf_length])
  have point (p : Nat) (is : c.indexPoint = some p) : natAt (configAxisArgs a c) 7 2 = p := by
    have at_ := natAt_bytesOf_append ([byteOf a, 0#8, c.source.code] ++ bytesOf 3 c.modulus
      ++ [boolByte c.indexPoint.isSome]) [c.tolerance, boolByte c.invert, c.filter, c.faultAction.code] 7 2 p
      (by simp [bytesOf_length]) (by simpa using index p is)
    simpa [configAxisArgs, is] using at_
  have configure : decodeAxisConfig (configAxisArgs a c) = none := by
    simp only [decodeAxisConfig, field, presence, Option.bind_eq_bind, withinNat]
    cases source : sourceOf (natAt (configAxisArgs a c) 2 1) with
    | none => rfl
    | some x =>
      by_cases within : 16 ≤ c.modulus ∧ c.modulus ≤ 65536
      · rw [if_pos within]
        cases is : c.indexPoint with
        | none => exact absurd ⟨within.1, within.2, by simp [is]⟩ out
        | some p =>
          have above : ¬ p < c.modulus := fun below => out ⟨within.1, within.2, by simp [is, below]⟩
          simp only [decodeIndexPoint, Option.isSome_some, boolOf_boolByte, point p is, if_neg above, Option.bind_some,
            Option.bind_none]
      · rw [if_neg within]; rfl
  have choice : natAt (configAxisArgs a c) 1 1 = 0 := natAt_byte_append [byteOf a] _ 1 0#8 rfl
  have axis : axisOf (natAt (configAxisArgs a c) 0 1) = some a := axisOf_first a _
  simp only [decodeConfigAxis, axis, choice, configure, Option.bind_eq_bind, Option.bind_some, Option.map_none]

theorem configAxisArgs_length (a : AxisId) (c : AxisConfig) : (configAxisArgs a c).length = 13 := by
  simp [configAxisArgs, bytesOf_length]

theorem offAxisArgs_length (a : AxisId) : (offAxisArgs a).length = 13 := by simp [offAxisArgs]

/-- A CONFIG_AXIS whose block works at once, by what the block makes of the configuration. -/
theorem execConfigAxis_worked {s t u : State} {tag : Byte} {a : AxisId} {c : AxisConfig} {l : Lines} {left done : Work}
    (ready : s.ReadyAlone tag) (range : c.InRange)
    (worked : (s.answers 0x10#8 tag (.waiting (configAxisArgs a c) l .prompt)).configAxis a c l
      = (t.answers 0x10#8 tag (.waiting (configAxisArgs a c) l .prompt), left))
    (wentOn : t.goOn (left.inOrder []) = (u, done)) (stops : u.stops = []) :
    exec (.configAxis ⟨frameRest 0x10#8 tag (configAxisArgs a c), .prompt⟩ l) s = .next (u.answers 0x10#8 tag done) :=
  congrArg Host.Outcome.next (request_worked (n := 13) rfl (configAxisArgs_length a c) (by decide) ready
    (by rw [configAxisBlock, decodeConfigAxis_configAxisArgs a c range]; exact worked) wentOn stops)

/-- A CONFIG_AXIS with the OFF choice. -/
theorem execConfigAxis_off {s t : State} {tag : Byte} {a : AxisId} {l : Lines} {status : Status}
    (ready : s.ReadyAlone tag)
    (worked : (s.answers 0x10#8 tag (.waiting (offAxisArgs a) l .prompt)).switchAxisOff a
      = (t.answers 0x10#8 tag (.waiting (offAxisArgs a) l .prompt), bare status)) (stops : t.stops = []) :
    exec (.configAxis ⟨frameRest 0x10#8 tag (offAxisArgs a), .prompt⟩ l) s = .next (t.answers 0x10#8 tag (bare status)) :=
  congrArg Host.Outcome.next (request_settled (n := 13) rfl (offAxisArgs_length a) (by decide) ready
    (by rw [configAxisBlock, decodeConfigAxis_offAxisArgs]; exact worked) rfl stops)

/-! ### RUN_AXIS, MOVE_AXIS and SET_RATE -/

/-- A RUN_AXIS, by what its block makes of the axis (R37). -/
theorem execRunAxis_worked {s t : State} {tag : Byte} {a : AxisId} {status : Status} (ready : s.ReadyAlone tag)
    (worked : (s.answers 0x11#8 tag (.waiting [byteOf a] ⟨false, false, false⟩ .prompt)).runAxis a
      = (t.answers 0x11#8 tag (.waiting [byteOf a] ⟨false, false, false⟩ .prompt), bare status)) (stops : t.stops = []) :
    exec (.runAxis ⟨frameRest 0x11#8 tag [byteOf a], .prompt⟩) s = .next (t.answers 0x11#8 tag (bare status)) :=
  congrArg Host.Outcome.next (request_settled (n := 1) rfl rfl (by decide) ready
    (by rw [runAxisBlock, show axisOf (natAt [byteOf a] 0 1) = some a from axisOf_first a []]; exact worked) rfl stops)

/-- The signed value that follows the axis number in the arguments of MOVE_AXIS and SET_RATE. -/
theorem intAt_second (b : Byte) (n : Nat) (v : Int) (low : -(256 ^ n : Nat) ≤ 2 * v) (high : 2 * v < (256 ^ n : Nat)) :
    intAt ([b] ++ signedBytesOf n v) 1 n = v := by
  have at_ := intAt_signedBytesOf_append [b] [] 1 n v rfl low high
  rwa [List.append_nil] at at_

theorem second_length (b : Byte) (n : Nat) (v : Int) : ([b] ++ signedBytesOf n v).length = n + 1 := by
  simp [signedBytesOf_length]

/-- A MOVE_AXIS of a count in range, by what its block makes of the axis (R42). -/
theorem execMoveAxis_worked {s t : State} {tag : Byte} {a : AxisId} {n : Int} {status : Status} (ready : s.ReadyAlone tag)
    (nonzero : n ≠ 0) (within : n.natAbs ≤ 1023)
    (worked : (s.answers 0x14#8 tag (.waiting ([byteOf a] ++ signedBytesOf 2 n) ⟨false, false, false⟩ .prompt)).moveAxis a n
      = (t.answers 0x14#8 tag (.waiting ([byteOf a] ++ signedBytesOf 2 n) ⟨false, false, false⟩ .prompt), bare status))
    (stops : t.stops = []) :
    exec (.moveAxis ⟨frameRest 0x14#8 tag ([byteOf a] ++ signedBytesOf 2 n), .prompt⟩) s
      = .next (t.answers 0x14#8 tag (bare status)) := by
  have count : moveCountOf (intAt ([byteOf a] ++ signedBytesOf 2 n) 1 2) = some n := by
    rw [intAt_second _ 2 n (by norm_num; omega) (by norm_num; omega), moveCountOf, if_neg nonzero, withinInt,
      if_pos (by omega)]
  exact congrArg Host.Outcome.next (request_settled (n := 3) rfl (second_length _ 2 n) (by decide) ready
    (by rw [moveAxisBlock, axisOf_first, count]; exact worked) rfl stops)

/-- A SET_RATE of a rate in range, by what its block makes of the axis (R43). -/
theorem execSetRate_worked {s t : State} {tag : Byte} {a : AxisId} {r : Int} {status : Status} (ready : s.ReadyAlone tag)
    (within : r.natAbs ≤ 500000)
    (worked : (s.answers 0x15#8 tag (.waiting ([byteOf a] ++ signedBytesOf 4 r) ⟨false, false, false⟩ .prompt)).setRate a r
      = (t.answers 0x15#8 tag (.waiting ([byteOf a] ++ signedBytesOf 4 r) ⟨false, false, false⟩ .prompt), bare status))
    (stops : t.stops = []) :
    exec (.setRate ⟨frameRest 0x15#8 tag ([byteOf a] ++ signedBytesOf 4 r), .prompt⟩) s
      = .next (t.answers 0x15#8 tag (bare status)) := by
  have rate : withinInt (-500000) 500000 (intAt ([byteOf a] ++ signedBytesOf 4 r) 1 4) = some r := by
    rw [intAt_second _ 4 r (by norm_num; omega) (by norm_num; omega), withinInt, if_pos (by omega)]
  exact congrArg Host.Outcome.next (request_settled (n := 5) rfl (second_length _ 4 r) (by decide) ready
    (by rw [setRateBlock, axisOf_first, rate]; exact worked) rfl stops)

/-! ### Refusals -/

/-- A RUN_AXIS, MOVE_AXIS or SET_RATE whose arguments are refused (R187). -/
theorem execRunAxis_above {s : State} {tag b : Byte} (ready : s.ReadyAlone tag) (above : 4 ≤ b.toNat) :
    exec (.runAxis ⟨frameRest 0x11#8 tag [b], .prompt⟩) s = .next (s.answers 0x11#8 tag (bare .badValue)) :=
  congrArg Host.Outcome.next (request_settled (n := 1) rfl rfl (by decide) ready
    (by rw [runAxisBlock, show axisOf (natAt [b] 0 1) = none from axisOf_above above []]) rfl (stops_of_ready ready))

theorem execMoveAxis_refused {s : State} {tag b : Byte} {n : Int} (ready : s.ReadyAlone tag)
    (refused : axisOf (natAt ([b] ++ signedBytesOf 2 n) 0 1) = none
      ∨ moveCountOf (intAt ([b] ++ signedBytesOf 2 n) 1 2) = none) :
    exec (.moveAxis ⟨frameRest 0x14#8 tag ([b] ++ signedBytesOf 2 n), .prompt⟩) s
      = .next (s.answers 0x14#8 tag (bare .badValue)) := by
  refine congrArg Host.Outcome.next (request_settled (n := 3) rfl (second_length _ 2 n) (by decide) ready ?_ rfl
    (stops_of_ready ready))
  unfold moveAxisBlock
  rcases refused with none_ | none_
  · simp only [none_]
  · cases axis : axisOf (natAt ([b] ++ signedBytesOf 2 n) 0 1) <;> simp only [none_]

theorem execSetRate_refused {s : State} {tag b : Byte} {r : Int} (ready : s.ReadyAlone tag)
    (refused : axisOf (natAt ([b] ++ signedBytesOf 4 r) 0 1) = none
      ∨ withinInt (-500000) 500000 (intAt ([b] ++ signedBytesOf 4 r) 1 4) = none) :
    exec (.setRate ⟨frameRest 0x15#8 tag ([b] ++ signedBytesOf 4 r), .prompt⟩) s
      = .next (s.answers 0x15#8 tag (bare .badValue)) := by
  refine congrArg Host.Outcome.next (request_settled (n := 5) rfl (second_length _ 4 r) (by decide) ready ?_ rfl
    (stops_of_ready ready))
  unfold setRateBlock
  rcases refused with none_ | none_
  · simp only [none_]
  · cases axis : axisOf (natAt ([b] ++ signedBytesOf 4 r) 0 1) <;> simp only [none_]

/-! ### A port that does not serve -/

/-- A request frame that the port does not judge ends its transaction (R185). -/
theorem request_unjudged {s : State} (out : s.phase ≠ .serving ∨ s.transaction = .unserved) (code : Byte)
    (rest : List Byte) (pace : Pace) (block : Handler) (l : Lines) :
    s.request code rest pace block l = { s with transaction := .closed } := by
  have unjudged : s.judges = false := by
    rw [← Bool.not_eq_true, judges_iff]
    rintro ⟨serving, served⟩
    exact out.elim (fun h => h serving) served
  rw [State.request, unjudged]
  rfl

theorem takeBreak_unjudged {s : State} (out : s.phase ≠ .serving ∨ s.transaction = .unserved) :
    s.takeBreak = { s with transaction := .closed } := by
  have unjudged : s.judges = false := by
    rw [← Bool.not_eq_true, judges_iff]
    rintro ⟨serving, served⟩
    exact out.elim (fun h => h serving) served
  rw [State.takeBreak, unjudged]
  rfl

/-- So does every frame, whatever its code (R174, R185). -/
theorem exec_requestCommand_unjudged {s : State} (out : s.phase ≠ .serving ∨ s.transaction = .unserved) (code : Byte)
    (rest : List Byte) (l : Lines) (pace : Pace) :
    exec (requestCommand code rest l pace) s = .next { s with transaction := .closed } := by
  have request (code : Byte) (rest : List Byte) (pace : Pace) (block : Handler) (l : Lines) :
      (.next (s.request code rest pace block l) : Host.Outcome State Fault Refusal)
        = .next { s with transaction := .closed } :=
    congrArg Host.Outcome.next (request_unjudged out code rest pace block l)
  unfold requestCommand
  split
  on_goal 32 =>
    show execUnknownRequest code rest s = _
    unfold execUnknownRequest
    split
    · rfl
    · rfl
    · rw [takeBreak_unjudged out]
    · exact request _ _ _ _ _
  all_goals exact request _ _ _ _ _

end Sys2Proof.Machine

open Sys2Proof Sys2Proof.Machine

/-- Settles O12: the end of a reset loads the levels alone, and a port that does not serve judges no frame. -/
theorem resetEndsAndThenThePortServes : Obligations.ResetEndsAndThenThePortServes := by
  unfold Obligations.ResetEndsAndThenThePortServes
  intro s l stop pace
  refine ⟨fun held => ?_, fun delay => ?_, fun out closed => ?_, fun code rest out => ?_⟩
  · exact ⟨_, (if_pos held : execEndOfReset l stop s = _), rfl,
      fun a => loadLines_axis { s with phase := .delay, stopActive := stop } l a⟩
  · exact (if_pos delay : execPortServiceDelayEnd s = _)
  · show execOutgoingFrame s = _
    simp only [execOutgoingFrame, closed, if_neg out]
  · exact exec_requestCommand_unjudged out code rest _ pace

/-- Settles O13: the block's branch for an OFF axis, and the decoding's for values out of range. -/
theorem firstConfigurationHaltsTheAxis : Obligations.FirstConfigurationHaltsTheAxis := by
  unfold Obligations.FirstConfigurationHaltsTheAxis
  intro s tag a c l ready
  refine ⟨fun off range => ?_, fun off => ?_, fun modulus index out => ?_⟩
  · refine execConfigAxis_worked (t := s.setAxis a ((s.axis a).firstConfigured c l)) (left := bare .done) ready range ?_ rfl
      (stops_of_ready ready)
    simp only [State.configAxis, State.answers_axis, off]
    rfl
  · refine execConfigAxis_off (t := s) ready ?_ (stops_of_ready ready)
    simp only [State.switchAxisOff, State.answers_axis, off]
  · exact congrArg Host.Outcome.next (request_settled (n := 13) rfl (configAxisArgs_length a c) (by decide) ready
      (by rw [configAxisBlock, decodeConfigAxis_outOfRange a c modulus index out]) rfl (stops_of_ready ready))

/-- Settles O17: each block's branches, and the decoding's for values out of range. -/
theorem runMoveAndRateRequests : Obligations.RunMoveAndRateRequests := by
  unfold Obligations.RunMoveAndRateRequests
  intro s tag a b n r ready
  have stops := stops_of_ready ready
  refine ⟨fun halted => ?_, fun running => ?_, fun other => ?_, fun above => ⟨?_, ?_, ?_⟩,
    fun nonzero within => ⟨fun stepped running fits => ?_, fun stepped running full => ?_, fun other => ?_⟩,
    fun out low high => ?_, fun within => ⟨fun source state => ?_, fun other => ?_⟩, fun out low high => ?_⟩
  · refine execRunAxis_worked (t := s.setAxis a { s.axis a with state := .running }) ready ?_ stops
    simp only [State.runAxis, State.answers_axis, halted]
    rfl
  · refine execRunAxis_worked (t := s) ready ?_ stops
    simp only [State.runAxis, State.answers_axis, running]
  · refine execRunAxis_worked (t := s) ready ?_ stops
    rcases other with state | state | state <;> simp only [State.runAxis, State.answers_axis, state]
  · exact execRunAxis_above ready above
  · exact execMoveAxis_refused ready (.inl (axisOf_above above _))
  · exact execSetRate_refused ready (.inl (axisOf_above above _))
  · refine execMoveAxis_worked (t := s.setAxis a { s.axis a with backlog := (s.axis a).backlog + n }) ready nonzero within
      ?_ stops
    simp only [State.moveAxis, State.answers_axis, stepped, running, and_self, if_true, Config.backlogLimit, fits]
    rfl
  · refine execMoveAxis_worked (t := s) ready nonzero within ?_ stops
    simp only [State.moveAxis, State.answers_axis, stepped, running, and_self, if_true, Config.backlogLimit,
      Nat.not_le.2 full, if_false]
  · refine execMoveAxis_worked (t := s) ready nonzero within ?_ stops
    have refused : ¬ ((s.axis a).source = .stepped ∧ (s.axis a).state = .running) := by tauto
    simp only [State.moveAxis, State.answers_axis, refused, if_false]
  · refine execMoveAxis_refused ready (.inr ?_)
    rw [intAt_second _ 2 n (by norm_num; omega) (by norm_num; omega), moveCountOf]
    split
    · rfl
    · rw [withinInt, if_neg (by omega)]
  · refine execSetRate_worked (t := s.setAxis a { s.axis a with rate := r }) ready within ?_ stops
    simp only [State.setRate, State.answers_axis, source, state, and_self, if_true]
    rfl
  · refine execSetRate_worked (t := s) ready within ?_ stops
    have refused : ¬ ((s.axis a).source = .rate
        ∧ ((s.axis a).state = .halted ∨ (s.axis a).state = .running ∨ (s.axis a).state = .faulted)) := by
      rintro ⟨source, state⟩
      rcases other with not | off | halting
      · exact not source
      · simp [off] at state
      · simp [halting] at state
    simp only [State.setRate, State.answers_axis, refused, if_false]
  · refine execSetRate_refused ready (.inr ?_)
    rw [intAt_second _ 4 r (by norm_num; omega) (by norm_num; omega), withinInt, if_neg (by omega)]

end

section
/-! SUPPORT. What the work on entries leaves of lists and outputs (`EntryKept`), and what a turn on one entry makes of its
slot where the channel is free. -/

namespace Sys2Proof.Machine

/-! ### A predicate that the work on entries keeps -/

/-- The fields of an output that counts, fences and toggles leave as they are. -/
def Output.fitting (x : Output) : Option AxisId × DriveType × Int × Bool × Mode :=
  (x.binding, x.drive, x.lead, x.safeHold, x.mode)

/-- An output with a count or a hold changed (R88, R94). -/
def Output.Tame (x y : Output) : Prop := y.fitting = x.fitting ∧ y.latch = x.latch

/-- `P` holds on through what the work on entries but for a fire of a TOGGLE can do: write a slot, count on an output or
fence it, drop an item of a fenced entry, report a fault, and leave work in a channel or take it from there. -/
structure TurnKept (P : State → Prop) : Prop where
  slot : ∀ {s : State} (h : Nat) (v : Slot), P s → P (s.setSlot h v)
  output : ∀ {s : State} {o : OutId} {x : Output}, P s → (s.output o).Tame x → P (s.setOutput o x)
  drop : ∀ {s : State} (a : AxisId) (h : Nat), P s → P (s.setList a ((s.list a).drop h))
  report : ∀ {s : State} (cause : FaultCause) (a : AxisId) (p : Nat) (rev : BitVec 16), P s →
    P (s.reportFault cause a p rev)
  channel : ∀ {s : State} (a : AxisId) (c : Channel), P s → c.inverted = (s.channel a).inverted → P (s.setChannel a c)

/-- `P` holds on through what the work on entries can do, a fire of a TOGGLE included, which inverts a latch. -/
structure EntryKept (P : State → Prop) : Prop extends TurnKept P where
  invert : ∀ {s : State} (a : AxisId) (o : OutId), P s → P (s.invertOnce a o)

theorem countUp_tame (x : Output) (k : Kind) : x.Tame (x.countUp k) := by cases k <;> exact ⟨rfl, rfl⟩

theorem countDown_tame (x : Output) (k : Kind) : x.Tame (x.countDown k) := by cases k <;> exact ⟨rfl, rfl⟩

theorem fence_tame (x : Output) (k : Kind) (wasActive : Bool) : x.Tame (x.fence k wasActive) := by
  rw [fence_eq]; exact ⟨rfl, rfl⟩

section
variable {P : State → Prop} {s : State}

theorem TurnKept.endActivity (k : TurnKept P) (h : Nat) (holds : P s) : P (s.endActivity h) := by
  unfold State.endActivity; split
  · split
    · exact holds
    · unfold State.countDownFor; split
      · exact k.output (k.slot h _ holds) (countDown_tame _ _)
      · exact k.slot h _ holds
  · exact holds

theorem TurnKept.countUpFor (k : TurnKept P) (e : Entry) (holds : P s) : P (s.countUpFor e) := by
  unfold State.countUpFor; split
  · exact k.output holds (countUp_tame _ _)
  · exact holds

theorem TurnKept.hand (k : TurnKept P) (h : Nat) (holds : P s) : P (s.hand h) := by
  unfold State.hand; split
  on_goal 1 => exact k.slot h _ holds
  on_goal 1 => exact k.slot h _ holds
  on_goal 1 => exact k.slot h _ holds
  all_goals exact holds

theorem TurnKept.runClaim (k : TurnKept P) (t : Task) (holds : P s) : P (s.runClaim t) := by
  cases t with
  | hand h => exact k.hand h holds
  | fenceOutput h o kind wasActive => exact k.output holds (fence_tame _ _ _)
  | fenceReport h a p rev => exact k.report _ _ _ _ holds
  | _ => exact holds

theorem TurnKept.claim (k : TurnKept P) (a : AxisId) (t : Task) (holds : P s) : P (State.claim a s t) := by
  unfold State.claim State.takeVia; split
  · exact k.channel a _ holds rfl
  · exact k.runClaim t holds

theorem TurnKept.takeHandings (k : TurnKept P) (h : Nat) (holds : P s) : P (s.takeHandings h) :=
  Kept.foldl (f := State.takeHanding h) (fun t a p => by
    unfold State.takeHanding; split
    · next eq =>
      split
      · exact k.hand h (k.channel a _ p (by rw [eq]))
      · exact p
    · exact p) axisIds holds

theorem TurnKept.fenceSlot (k : TurnKept P) (h : Nat) (e : Entry) (log : FireLog) (holds : P s) :
    P (s.fenceSlot h e log) := by
  have of {t : State} (begun : P t) (lists : t.lists = s.lists) :
      P ((t.setSlot h (.fenced e false log)).setList e.axis ((s.list e.axis).drop h)) := by
    have list : s.list e.axis = (t.setSlot h (.fenced e false log)).list e.axis := by
      simp only [State.list, State.setSlot, lists]
    rw [list]
    exact k.drop _ h (k.slot h _ begun)
  unfold State.fenceSlot
  split
  · exact of (k.takeHandings h holds) (congrArg Prod.fst (takeHandings_frame s h))
  · exact of holds rfl

theorem TurnKept.fenceFrom (k : TurnKept P) (a : AxisId) (h : Nat) (holds : P s) : P (s.fenceFrom a h) := by
  have begun : P (s.beginFence h).1 := by
    unfold State.beginFence; split
    · exact k.fenceSlot h _ _ holds
    · exact holds
  exact Kept.foldl (fun _ t => k.claim a t) _ begun

theorem TurnKept.fire (k : TurnKept P) (a : AxisId) (h : Nat) (dir : FireDir) (act : Activity) (holds : P s) :
    P (s.fire a h dir act) := by
  unfold State.fire; split
  · simp only
    split
    · exact k.claim a _ (k.slot h _ holds)
    · exact k.slot h _ holds
  · exact holds

theorem TurnKept.activate (k : TurnKept P) (a : AxisId) (h : Nat) (e : Entry) (dir : FireDir) (timer : Option Nat)
    (holds : P s) : P (s.activate a h e dir timer) := k.fire a h dir _ (k.countUpFor e holds)

theorem TurnKept.judge (k : TurnKept P) (a : AxisId) (h : Nat) {act : Entry → Run → State} (keeps : ∀ e r, P (act e r))
    (holds : P s) : P (s.judge a h act) := by
  unfold State.judge; split
  · exact holds
  · split
    · exact keeps _ _
    · exact k.fenceFrom a h holds

theorem TurnKept.settleEntry (k : TurnKept P) (a : AxisId) (h : Nat) (e : Entry) (r : Run) (holds : P s) :
    P (s.settleEntry a h e r) := by
  unfold State.settleEntry; split
  · split
    · exact k.activate a h e _ _ holds
    · exact holds
  · exact holds

theorem TurnKept.crossFire (k : TurnKept P) (a : AxisId) (inverts : ∀ {u : State} o, P u → P (u.invertOnce a o)) (h : Nat)
    (e : Entry) (r : Run) (dir : FireDir) (holds : P s) : P (s.crossFire a h e r dir) := by
  unfold State.crossFire; split
  · exact holds
  · split
    · exact k.activate a h e dir _ holds
    · exact k.fire a h dir _ holds
  · exact k.fire a h dir _ (inverts _ holds)
  · exact k.fire a h dir _ holds

/-- The work on one entry keeps `P`; but for the crossing of a TOGGLE it inverts no latch. -/
theorem TurnKept.runEntry (k : TurnKept P) (a : AxisId) {t : Task} (plain : ∀ h dir, t ≠ .cross h dir) (holds : P s) :
    P (s.runEntry a t) := by
  unfold State.runEntry; split
  · exact absurd rfl (plain _ _)
  · exact k.judge a _ (fun e r => by
      split
      · split
        · split
          · exact k.activate a _ e _ _ holds
          · exact holds
        · exact k.endActivity _ holds
      · exact holds) holds
  · exact k.judge a _ (fun e r => by
      split
      · split
        · exact holds
        · exact k.endActivity _ holds
      · exact holds) holds
  · exact k.judge a _ (fun e r => k.settleEntry a _ e r holds) holds
  · unfold State.jumpSettle; split
    · exact holds
    · exact k.settleEntry a _ _ _ holds
  · exact k.runClaim _ holds

/-- The work on one entry by a channel whose inversions keep `P`. -/
theorem TurnKept.runAny (k : TurnKept P) (a : AxisId) (inverts : ∀ {u : State} o, P u → P (u.invertOnce a o)) (t : Task)
    (holds : P s) : P (s.runEntry a t) := by
  by_cases cross : ∃ h dir, t = .cross h dir
  · obtain ⟨h, dir, rfl⟩ := cross
    exact k.judge a _ (fun e r => by
      split
      · exact k.crossFire a inverts _ e r _ holds
      · exact holds) holds
  · exact k.runEntry a (fun h dir is => cross ⟨h, dir, is⟩) holds

theorem TurnKept.takeAny (k : TurnKept P) (a : AxisId) (inverts : ∀ {u : State} o, P u → P (u.invertOnce a o))
    (ts : List Task) (holds : P s) : P (s.takeEntries a ts) :=
  Kept.foldl (f := State.takeVia (State.runEntry a) a) (fun u t p => by
    unfold State.takeVia; split
    · exact k.channel a _ p rfl
    · exact k.runAny a inverts t p) ts holds

theorem EntryKept.runEntry (k : EntryKept P) (a : AxisId) (t : Task) (holds : P s) : P (s.runEntry a t) :=
  k.runAny a (k.invert a) t holds

theorem TurnKept.takeEntries (k : TurnKept P) (a : AxisId) (ts : List Task) (plain : ∀ t ∈ ts, ∀ h dir, t ≠ .cross h dir)
    (holds : P s) : P (s.takeEntries a ts) :=
  foldl_keepsProp (f := State.takeVia (State.runEntry a) a) (fun u t p plain => by
    unfold State.takeVia; split
    · exact k.channel a _ p rfl
    · exact k.runEntry a plain p) ts plain holds

theorem EntryKept.takeEntries (k : EntryKept P) (a : AxisId) (ts : List Task) (holds : P s) : P (s.takeEntries a ts) :=
  k.takeAny a (k.invert a) ts holds

end

/-! ### Which fields of the outputs and of the lists it leaves -/

/-- The fields of every output that counts, fences and toggles leave. -/
def State.fittings (s : State) (o : OutId) : Option AxisId × DriveType × Int × Bool × Mode := (s.output o).fitting

theorem setOutput_fittings {s : State} {o : OutId} {x : Output} (same : x.fitting = (s.output o).fitting) :
    (s.setOutput o x).fittings = s.fittings := by
  funext p
  simp only [State.fittings, State.setOutput_output]
  split
  · next eq => rw [same, eq]
  · rfl

theorem invertOnce_fittings (s : State) (a : AxisId) (o : OutId) : (s.invertOnce a o).fittings = s.fittings := by
  unfold State.invertOnce
  simp only
  split
  · rfl
  · exact setOutput_fittings (s := s) (o := o) (x := (s.output o).invertLatch) rfl

theorem reportFault_outputs (s : State) (cause : FaultCause) (a : AxisId) (p : Nat) (rev : BitVec 16) :
    (s.reportFault cause a p rev).outputs = s.outputs := by
  unfold State.reportFault; split <;> rfl

theorem reportFault_lists (s : State) (cause : FaultCause) (a : AxisId) (p : Nat) (rev : BitVec 16) :
    (s.reportFault cause a p rev).lists = s.lists := by
  unfold State.reportFault; split <;> rfl

theorem fittings_of_outputs {s t : State} (same : t.outputs = s.outputs) : t.fittings = s.fittings := by
  funext o
  simp only [State.fittings, State.output, same]

theorem fittings_entryKept (f : OutId → Option AxisId × DriveType × Int × Bool × Mode) :
    EntryKept (fun s => s.fittings = f) where
  slot _ _ holds := holds
  output holds tame := (setOutput_fittings tame.1).trans holds
  invert {s} a o holds := (invertOnce_fittings s a o).trans holds
  drop _ _ holds := holds
  report {s} cause a p rev holds := (fittings_of_outputs (reportFault_outputs s cause a p rev)).trans holds
  channel _ _ holds _ := holds

@[simp] theorem runEntry_fittings (a : AxisId) (s : State) (t : Task) : (s.runEntry a t).fittings = s.fittings :=
  (fittings_entryKept s.fittings).runEntry a t rfl

@[simp] theorem takeEntries_fittings (a : AxisId) (s : State) (ts : List Task) :
    (s.takeEntries a ts).fittings = s.fittings := (fittings_entryKept s.fittings).takeEntries a ts rfl

@[simp] theorem fenceFrom_fittings (a : AxisId) (s : State) (h : Nat) : (s.fenceFrom a h).fittings = s.fittings :=
  (fittings_entryKept s.fittings).fenceFrom a h rfl

@[simp] theorem endActivity_fittings (s : State) (h : Nat) : (s.endActivity h).fittings = s.fittings :=
  (fittings_entryKept s.fittings).endActivity h rfl

/-! ### States between which only entries have been worked on -/

/-- `t` differs from `s` by work on entries alone: the axes, the attention set and the like stand, and so do the fields of
the outputs that are no counts, latches or fault holds. -/
structure State.Near (s t : State) : Prop where
  still : t.still = s.still
  fittings : t.fittings = s.fittings

theorem State.Near.refl (s : State) : State.Near s s := ⟨rfl, rfl⟩

theorem State.Near.trans {s t u : State} (first : State.Near s t) (second : State.Near t u) : State.Near s u :=
  ⟨second.still.trans first.still, second.fittings.trans first.fittings⟩

theorem runEntry_near (a : AxisId) (s : State) (t : Task) : State.Near s (s.runEntry a t) :=
  ⟨runEntry_still a s t, runEntry_fittings a s t⟩

theorem takeEntries_near (a : AxisId) (s : State) (ts : List Task) : State.Near s (s.takeEntries a ts) :=
  ⟨takeEntries_still a s ts, takeEntries_fittings a s ts⟩

theorem State.Near.axis {s t : State} (near : State.Near s t) (a : AxisId) : t.axis a = s.axis a :=
  State.axis_of_still near.still a

/-- The effective points of an entry are made of its axis's modulus and its output's lead (R19). -/
theorem effective_eq {s t : State} {e : Entry} (modulus : (t.axis e.axis).modulus = (s.axis e.axis).modulus)
    (lead : ∀ o, e.output = some o → (t.output o).lead = (s.output o).lead) : t.effective e = s.effective e := by
  funext p
  unfold State.effective State.leadFor
  rw [modulus]
  cases output : e.output with
  | none => rfl
  | some o => simp only [lead o output]

theorem lead_of_fittings {s t : State} (same : t.fittings = s.fittings) (o : OutId) :
    (t.output o).lead = (s.output o).lead := congrArg (fun f => f.2.2.1) (congrFun same o)

theorem State.Near.effective {s t : State} (near : State.Near s t) (e : Entry) : t.effective e = s.effective e :=
  effective_eq (by rw [near.axis]) (fun o _ => lead_of_fittings near.fittings o)

theorem State.Near.inWindow {s t : State} (near : State.Near s t) (e : Entry) (off : Nat) :
    t.inWindow e off = s.inWindow e off := by
  simp only [State.inWindow, State.effOn, near.effective, near.axis]

/-! ### One turn each -/

/-- Turns on entries other than `h` leave its slot. -/
theorem turns_slot_other (a : AxisId) {f : Nat → Task} (handle : ∀ k, (f k).handle? = some k) {hs : List Nat} {h : Nat}
    (unnamed : h ∉ hs) {s : State} (free : Free a s) : ((hs.map f).foldl (State.runEntry a) s).slot h = s.slot h := by
  have taken := takeEntries_slot_ne a (hs.map f) s (k := h) (fun u m => by
    obtain ⟨k, mk, rfl⟩ := List.mem_map.1 m
    rw [handle]
    rintro ⟨⟩
    exact unnamed mk)
  rwa [(takeEntries_free s _ free).1] at taken

/-- Of turns on distinct entries, that of `h` meets its slot as it was, and the turns after it are of others (R58). -/
theorem turns_at (a : AxisId) {f : Nat → Task} (handle : ∀ k, (f k).handle? = some k) {hs : List Nat} (nodup : hs.Nodup)
    {h : Nat} (mem : h ∈ hs) {s : State} (free : Free a s) :
    ∃ (u : State) (after : List Nat), State.Near s u ∧ u.slot h = s.slot h ∧ Free a u ∧ h ∉ after
      ∧ (hs.map f).foldl (State.runEntry a) s = (after.map f).foldl (State.runEntry a) (u.runEntry a (f h)) := by
  obtain ⟨before, after, rfl⟩ := List.append_of_mem mem
  have unnamed : h ∉ before ∧ h ∉ after := by simpa using (List.nodup_cons.1 (List.nodup_middle.1 nodup)).1
  have begun := takeEntries_free s (before.map f) free
  have near := takeEntries_near a s (before.map f)
  have free' := begun.2
  rw [begun.1] at near free'
  refine ⟨(before.map f).foldl (State.runEntry a) s, after, near, turns_slot_other a handle unnamed.1 free, free',
    unnamed.2, ?_⟩
  rw [List.map_append, List.map_cons, List.foldl_append, List.foldl_cons]

/-- Of turns on distinct entries, the slot of each is made by its own turn, met as it was (R58). -/
theorem turns_slot (a : AxisId) {f : Nat → Task} (handle : ∀ k, (f k).handle? = some k) {hs : List Nat} (nodup : hs.Nodup)
    {h : Nat} (mem : h ∈ hs) {s : State} (free : Free a s) :
    ∃ u, State.Near s u ∧ u.slot h = s.slot h ∧ Free a u
      ∧ ((hs.map f).foldl (State.runEntry a) s).slot h = (u.runEntry a (f h)).slot h := by
  obtain ⟨u, after, near, slot, free', unnamed, turns⟩ := turns_at a handle nodup mem free
  exact ⟨u, near, slot, free', by rw [turns]; exact turns_slot_other a handle unnamed (runEntry_keepsFree _ _ free')⟩

theorem liveInOrder_nodup (s : State) (a : AxisId) (p : Entry → Bool) : (s.liveInOrder a p).Nodup :=
  (order_nodup s a).filter _

theorem mem_liveInOrder {s : State} {a : AxisId} {p : Entry → Bool} {h : Nat} : h ∈ s.liveInOrder a p ↔
    h < Config.slotCount ∧ (s.slot h).liveWith (fun e => e.axis == a && p e) = true := by
  simp only [State.liveInOrder, List.mem_filter, mem_order]
  cases s.slot h <;> simp [Slot.ordered, Slot.liveWith, Config.slotCount, and_assoc]

/-! ### The turn of an entry whose channel is free -/

section
variable {a : AxisId} {s : State} {h : Nat} {e : Entry} {ok : Bool} {r : Run}

theorem handsOver_of_free (free : Free a s) : s.handsOver a h = true := by
  simp [State.handsOver, busy_of_free free, ((free_iff a s).1 free).1]

/-- A LIVE entry of a REFERENCED axis that is not FAULTED is judged (R58, R73). -/
theorem judged_of_live (live : s.slot h = .live e ok r) (own : e.axis = a) (referenced : (s.axis a).referenced = true)
    (working : (s.axis a).state ≠ .faulted) : s.judged a h = some (e, ok, r) := by
  simp only [State.judged, live]
  rw [if_pos ⟨own, referenced, working⟩]

theorem judge_of_ok (judged : s.judged a h = some (e, true, r)) (act : Entry → Run → State) :
    s.judge a h act = act e r := by
  simp only [State.judge, judged, if_true]

/-- An entry found inconsistent is fenced (R84). -/
theorem judge_slot_of_inconsistent (judged : s.judged a h = some (e, false, r)) (act : Entry → Run → State) :
    (s.judge a h act).slot h = .fenced e false r.log := by
  simp only [State.judge, judged]
  exact fenceFrom_slot_live a s (judged_eq_some judged)

theorem judge_of_unjudged (unjudged : s.judged a h = none) (act : Entry → Run → State) : s.judge a h act = s := by
  simp only [State.judge, unjudged]

/-- A fire that makes an entry ACTIVE (R64, R69, R73). -/
theorem activate_slot_live (live : s.slot h = .live e ok r) (dir : FireDir) (timer : Option Nat) (free : Free a s) :
    (s.activate a h e dir timer).slot h
      = .live e ok (fireLeaves r e (s.axis e.axis).revolution dir (.active timer) true) := by
  have freed : Free a (s.countUpFor e) := free_of_way (countUpFor_way a s e) free
  rw [State.activate, fire_slot_live a _ dir _ ((countUpFor_slot s e h).trans live), handsOver_of_free freed,
    State.axis_of_still (countUpFor_still s e)]

/-- What the settle of a consistent WINDOW leaves in its slot (R73). -/
def State.settledSlot (s : State) (e : Entry) (r : Run) (off : Nat) : Slot :=
  if r.activity = .idle ∧ r.spent = false ∧ s.inWindow e off = true then
    .live e true (fireLeaves r e (s.axis e.axis).revolution .none (.active none) true)
  else .live e true r

theorem settleEntry_slot_self {o : OutId} {off : Nat} (live : s.slot h = .live e true r)
    (window : e.action = .window o off) (free : Free a s) : (s.settleEntry a h e r).slot h = s.settledSlot e r off := by
  simp only [State.settleEntry, window, State.settledSlot]
  split
  · exact activate_slot_live live _ _ free
  · exact live

theorem settledSlot_near {t : State} (near : State.Near s t) (off : Nat) :
    t.settledSlot e r off = s.settledSlot e r off := by
  simp only [State.settledSlot, near.inWindow, near.axis]

end

/-! ### Settles and jumps -/

section
variable {a : AxisId} {s : State}

/-- The entries of an axis that is not REFERENCED or FAULTED are not judged, and settling them changes nothing (R73). -/
theorem settleAll_unjudged (unjudged : (s.axis a).referenced = false ∨ (s.axis a).state = .faulted) (free : Free a s)
    (hs : List Nat) : s.settleAll a hs = s := by
  have turn (h : Nat) : s.runEntry a (.settle h) = s := by
    have none_ : s.judged a h = none := by
      unfold State.judged
      split
      · rw [if_neg]
        rintro ⟨-, referenced, working⟩
        rcases unjudged with not | faulted
        · rw [not] at referenced; cases referenced
        · exact working faulted
      · rfl
    exact judge_of_unjudged none_ _
  unfold State.settleAll
  rw [(takeEntries_free s _ free).1]
  induction hs with
  | nil => rfl
  | cons h hs ih => rw [List.map_cons, List.foldl_cons, turn, ih]

theorem settleWindows_slot_unjudged (unjudged : (s.axis a).referenced = false ∨ (s.axis a).state = .faulted)
    (free : Free a s) (k : Nat) : (s.settleWindows a).slot k = s.slot k := by
  rw [State.settleWindows, settleAll_unjudged unjudged free]

/-- The settle of every window of a REFERENCED axis that is not FAULTED (R73, R75). -/
theorem settleWindows_settled (referenced : (s.axis a).referenced = true) (working : (s.axis a).state ≠ .faulted)
    (free : Free a s) : s.WindowsSettled (s.settleWindows a) a := by
  have near : State.Near s (s.settleWindows a) := takeEntries_near a s _
  have taken : s.settleWindows a = ((s.liveWindows a).map Task.settle).foldl (State.runEntry a) s :=
    (takeEntries_free s _ free).1
  refine ⟨fun h below e ok r o off live own window => ?_, fun h below other => ?_⟩
  · have mem : h ∈ s.liveWindows a := by
      refine mem_liveInOrder.2 ⟨below, ?_⟩
      simp [live, Slot.liveWith, own, Entry.isWindow, Entry.kind, window]
    obtain ⟨u, before, slot, free', turn⟩ :=
      turns_slot a (f := Task.settle) (fun _ => rfl) (liveInOrder_nodup s a Entry.isWindow) mem free
    have live' := slot.trans live
    have judged := judged_of_live live' own (by rw [before.axis]; exact referenced) (by rw [before.axis]; exact working)
    rw [near.inWindow, taken]
    have self (consistent : ok = true) :
        (((s.liveWindows a).map Task.settle).foldl (State.runEntry a) s).slot h = s.settledSlot e r off := by
      subst consistent
      refine turn.trans ?_
      show (u.judge a h (fun e r => u.settleEntry a h e r)).slot h = _
      rw [judge_of_ok judged, settleEntry_slot_self live' window free', settledSlot_near before]
    refine ⟨fun inconsistent => ?_, fun consistent inside idle unspent => ?_, fun consistent stays => ?_⟩
    · subst inconsistent
      exact turn.trans (judge_slot_of_inconsistent judged _)
    · rw [self consistent, State.settledSlot, if_pos ⟨idle, unspent, inside⟩, own]
    · rw [self consistent, State.settledSlot, if_neg, live, consistent]
      rintro ⟨idle, unspent, inside⟩
      rcases stays with outside | active | spent
      · rw [inside] at outside; cases outside
      · exact active idle
      · rw [spent] at unspent; cases unspent
  · refine takeEntries_slot_ne a _ s (fun t m => ?_)
    obtain ⟨k, mem, rfl⟩ := List.mem_map.1 m
    rintro ⟨⟩
    have live := (mem_liveInOrder.1 mem).2
    rw [other] at live
    cases live

end

end Sys2Proof.Machine
end

section
/-! SUPPORT. What an application, a silent end and the claims of fences leave aside (`State.Aside`) and of the activity of
an axis (`State.Hushed`), and what is left of the work of a fault where it stops. -/

namespace Sys2Proof.Machine

/-! ### A predicate that applications, fences and silent ends keep -/

/-- A write that makes no entry ACTIVE. -/
def Slot.Calms (v w : Slot) : Prop := w.isActive = true → v.isActive = true ∧ w.entry? = v.entry?

theorem calms_of_inactive {v w : Slot} (inactive : w.isActive = false) : v.Calms w := by simp [Slot.Calms, inactive]

/-- An output with its safe hold and its binding as they were. -/
def Output.Held (x y : Output) : Prop := y.safeHold = x.safeHold ∧ y.binding = x.binding

theorem held_of_tame {x y : Output} (tame : x.Tame y) : x.Held y := by
  have fitting := tame.1
  simp only [Output.fitting, Prod.mk.injEq] at fitting
  exact ⟨fitting.2.2.2.1, fitting.1⟩

/-- What a stop within an application or a fence can leave in a channel. -/
def Task.FromList (announced : Bool) (t : Task) : Prop :=
  t = .application announced ∨ (∃ h o kind act, t = .fenceOutput h o kind act)
    ∨ ∃ h a p rev, t = .fenceReport h a p rev

/-- A channel takes handings it has left waiting, and leaves what a stop within an application leaves. -/
structure Channel.Grows (announced : Bool) (c d : Channel) : Prop where
  kept : ∀ t ∈ c.rest, t ∈ d.rest ∨ ∃ h, t = .hand h
  fresh : ∀ t ∈ d.rest, t ∈ c.rest ∨ t.FromList announced

/-- `P` holds on through all that an application does: writes that make no entry ACTIVE, writes of outputs that keep their
safe hold, binding and latch, writes of lists, reasons set, faults reported, and what a stop leaves in the channel of `x`. -/
structure ListKept (x : AxisId) (announced : Bool) (P : State → Prop) : Prop where
  slot : ∀ {s : State} {h : Nat} {v : Slot}, P s → (s.slot h).Calms v → P (s.setSlot h v)
  output : ∀ {s : State} {o : OutId} {x : Output}, P s → (s.output o).Held x →
    x.latch = (s.output o).latch → P (s.setOutput o x)
  list : ∀ {s : State} (a : AxisId) (l : PendingList), P s → P (s.setList a l)
  latch : ∀ {s : State} (r : ReasonSet), P s → P (s.latch r)
  report : ∀ {s : State} (cause : FaultCause) (a : AxisId) (p : Nat) (rev : BitVec 16), P s →
    P (s.reportFault cause a p rev)
  channel : ∀ {s : State} {a : AxisId} {c : Channel}, P s → (s.channel a).Grows announced c →
    (a ≠ x → c.rest ⊆ (s.channel a).rest) → P (s.setChannel a c)

section
variable {x : AxisId} {announced : Bool} {P : State → Prop} {s : State}

theorem ListKept.endActivity (k : ListKept x announced P) (h : Nat) (holds : P s) : P (s.endActivity h) := by
  unfold State.endActivity; split
  · next e ok r _ =>
    split
    · exact holds
    · have idle := k.slot (h := h) (v := .live e ok { r with activity := .idle }) holds (calms_of_inactive rfl)
      unfold State.countDownFor; split
      · exact k.output idle (held_of_tame (countDown_tame _ _)) (countDown_tame _ _).2
      · exact idle
  · exact holds

theorem ListKept.hand (k : ListKept x announced P) (h : Nat) (holds : P s) : P (s.hand h) := by
  unfold State.hand; split
  · next e ok r live => exact k.slot holds (fun active => by rw [live]; exact ⟨active, rfl⟩)
  · exact k.slot holds (calms_of_inactive rfl)
  · exact k.slot holds (calms_of_inactive rfl)
  all_goals exact holds

theorem ListKept.runClaim (k : ListKept x announced P) (t : Task) (holds : P s) : P (s.runClaim t) := by
  cases t with
  | hand h => exact k.hand h holds
  | fenceOutput h o kind wasActive => exact k.output holds (held_of_tame (fence_tame _ _ _)) (fence_tame _ _ _).2
  | fenceReport h a p rev => exact k.report _ _ _ _ holds
  | _ => exact holds

theorem ListKept.defer (k : ListKept x announced P) {t : Task} (left : t.FromList announced) (holds : P s) : P (s.defer x t) :=
  k.channel holds ⟨fun _ m => .inl (List.mem_append_left _ m), fun u m => by
    rcases List.mem_append.1 m with m | m
    · exact .inl m
    · exact .inr (List.mem_singleton.1 m ▸ left)⟩ (fun other => absurd rfl other)

theorem ListKept.claim (k : ListKept x announced P) {t : Task} (left : t.FromList announced) (holds : P s) :
    P (State.claim x s t) := by
  unfold State.claim State.takeVia; split
  · exact k.defer left holds
  · exact k.runClaim t holds

theorem ListKept.takeHandings (k : ListKept x announced P) (h : Nat) (holds : P s) : P (s.takeHandings h) :=
  Kept.foldl (f := State.takeHanding h) (fun t a p => by
    unfold State.takeHanding; split
    · next eq =>
      split
      · refine k.hand h (k.channel p ⟨fun u m => ?_, fun u m => ?_⟩ (fun _ => ?_))
        · rw [eq] at m
          rcases List.mem_cons.1 m with rfl | m
          · exact .inr ⟨_, rfl⟩
          · exact .inl m
        · rw [eq]; exact .inl (List.mem_cons_of_mem _ m)
        · rw [eq]; exact fun _ m => List.mem_cons_of_mem _ m
      · exact p
    · exact p) axisIds holds

theorem ListKept.fenceSlot (k : ListKept x announced P) (h : Nat) (e : Entry) (log : FireLog) (holds : P s) :
    P (s.fenceSlot h e log) := by
  unfold State.fenceSlot
  refine k.list _ _ (k.slot ?_ (calms_of_inactive rfl))
  split
  · exact k.takeHandings h holds
  · exact holds

theorem beginFence_fromList (s : State) (h : Nat) : ∀ t ∈ (s.beginFence h).2, t.FromList announced := by
  unfold State.beginFence
  split
  · intro t m
    simp only [Entry.fenceClaims, List.mem_append, Option.mem_toList, Option.map_eq_some_iff,
      List.mem_singleton] at m
    rcases m with ⟨o, -, rfl⟩ | rfl
    · exact .inr (.inl ⟨_, _, _, _, rfl⟩)
    · exact .inr (.inr ⟨_, _, _, _, rfl⟩)
  · exact nofun

theorem ListKept.fenceFrom (k : ListKept x announced P) (h : Nat) (holds : P s) : P (s.fenceFrom x h) := by
  have begun : P (s.beginFence h).1 := by
    unfold State.beginFence; split
    · exact k.fenceSlot h _ _ holds
    · exact holds
  exact foldl_keepsProp (f := State.claim x) (fun _ _ p left => k.claim left p) _ (beginFence_fromList s h) begun

theorem ListKept.applyItem (k : ListKept x announced P) (i : Item) (holds : P s) : P (s.applyItem i) := by
  cases i with
  | place h =>
    simp only [State.applyItem, State.applyPlace]; split
    · exact k.slot (k.takeHandings h holds) (calms_of_inactive rfl)
    · exact holds
  | alter h v =>
    simp only [State.applyItem, State.applyAlter]; split
    · exact k.slot (k.endActivity h holds) (calms_of_inactive rfl)
    · exact holds
  | retire h =>
    simp only [State.applyItem, State.applyRetire]; split
    · exact k.slot (k.endActivity h holds) (calms_of_inactive (retiredSlot_inactive _ _ _))
    · exact holds
  | setLead o lead =>
    have silenced : P ((s.liveOn o).foldl State.endActivity s) := Kept.foldl (fun _ h => k.endActivity h) _ holds
    simp only [State.applyItem, State.applyLead]
    generalize (s.liveOn o).foldl State.endActivity s = t at silenced
    exact k.output silenced ⟨rfl, rfl⟩ rfl

theorem ListKept.applyNext (k : ListKept x announced P) (holds : P s) : P (s.applyNext x) := by
  unfold State.applyNext; split
  · exact holds
  · next i more _ =>
    simp only
    split
    · refine k.list _ _ ?_
      cases i.handle? with
      | none => exact holds
      | some h => exact k.fenceFrom h holds
    · exact k.applyItem i (k.list _ _ holds)

theorem ListKept.endApplication (k : ListKept x announced P) (a : AxisId) (holds : P s) :
    P (s.endApplication a announced) := by
  unfold State.endApplication
  simp only
  split
  · exact k.latch _ (k.list _ _ holds)
  · exact k.list _ _ holds

/-- The items of a list, until the work stops. -/
theorem ListKept.applyItems (k : ListKept x announced P) (xs : List Item) (holds : P s) :
    P (xs.foldl (fun t _ => if t.busy x then t else t.applyNext x) s) :=
  Kept.foldl (f := fun (t : State) (_ : Item) => if t.busy x then t else t.applyNext x) (fun t _ p => by
    split
    · exact p
    · exact k.applyNext p) xs holds

theorem ListKept.applyClosed (k : ListKept x announced P) (holds : P s) :
    P (s.applyClosed x announced) := by
  have items := k.applyItems (s.list x).items holds
  unfold State.applyClosed; split
  · simp only
    split
    · exact k.defer (.inl rfl) items
    · exact k.endApplication x items
  · exact holds

end

/-! ### What stands aside -/

/-- The set reasons of `s` are set in `t`. -/
def State.Raises (s t : State) : Prop := ∀ r, s.latched &&& r = r → t.latched &&& r = r

theorem or_raises (m r : ReasonSet) : ∀ q, m &&& q = q → (m ||| r) &&& q = q := by
  intro q same
  refine BitVec.eq_of_getElem_eq fun i below => ?_
  have bit := congrArg (fun v : ReasonSet => v[i]) same
  simp only [BitVec.getElem_and, BitVec.getElem_or] at bit ⊢
  cases v : q[i] <;> simp_all

theorem latch_raises (s : State) (r : ReasonSet) : s.Raises (s.latch r) := or_raises s.latched r

theorem latch_sets (s : State) (r : ReasonSet) : (s.latch r).latched &&& r = r := by
  refine BitVec.eq_of_getElem_eq fun i below => ?_
  simp only [State.latch, BitVec.getElem_and, BitVec.getElem_or]
  cases v : r[i] <;> simp

/-- What a channel's work leaves aside while it neither enters nor leaves the safe state: the condition, the safe holds and
the bindings stand, and no reason and no report is lost. -/
structure State.Aside (s t : State) : Prop where
  condition : t.condition = s.condition
  held : ∀ o, (s.output o).Held (t.output o)
  raises : s.Raises t
  reported : s.report.isSome = true → t.report.isSome = true

theorem State.Aside.refl (s : State) : State.Aside s s := ⟨rfl, fun _ => ⟨rfl, rfl⟩, fun _ => id, id⟩

theorem State.Aside.trans {s t u : State} (first : State.Aside s t) (second : State.Aside t u) : State.Aside s u where
  condition := second.condition.trans first.condition
  held o := ⟨(second.held o).1.trans (first.held o).1, (second.held o).2.trans (first.held o).2⟩
  raises r set := second.raises r (first.raises r set)
  reported some := second.reported (first.reported some)

theorem State.Aside.of_latched {s t : State} (condition : t.condition = s.condition) (outputs : t.outputs = s.outputs)
    (raises : s.Raises t) (report : s.report.isSome = true → t.report.isSome = true) : State.Aside s t :=
  ⟨condition, fun o => by simp only [State.output, outputs]; exact ⟨rfl, rfl⟩, raises, report⟩

theorem setOutput_aside {s : State} {o : OutId} {x : Output} (held : (s.output o).Held x) :
    State.Aside s (s.setOutput o x) where
  condition := rfl
  held p := by
    rw [State.setOutput_output]
    split
    · next same => subst same; exact held
    · exact ⟨rfl, rfl⟩
  raises _ := id
  reported := id

theorem reportFault_isSome (s : State) (cause : FaultCause) (a : AxisId) (p : Nat) (rev : BitVec 16) :
    (s.reportFault cause a p rev).report.isSome = true := by
  unfold State.reportFault; split <;> rfl

theorem reportFault_aside (s : State) (cause : FaultCause) (a : AxisId) (p : Nat) (rev : BitVec 16) :
    State.Aside s (s.reportFault cause a p rev) :=
  .of_latched (by unfold State.reportFault; split <;> rfl) (reportFault_outputs s cause a p rev)
    (fun r => by unfold State.reportFault; split <;> exact id) (fun _ => reportFault_isSome s cause a p rev)

theorem aside_listKept (x : AxisId) (announced : Bool) (s : State) : ListKept x announced (State.Aside s) where
  slot holds _ := holds.trans (.of_latched rfl rfl (fun _ => id) id)
  output holds held _ := holds.trans (setOutput_aside held)
  list _ _ holds := holds.trans (.of_latched rfl rfl (fun _ => id) id)
  latch r holds := holds.trans (.of_latched rfl rfl (latch_raises _ r) id)
  report cause a p rev holds := holds.trans (reportFault_aside _ cause a p rev)
  channel holds _ _ := holds.trans (.of_latched rfl rfl (fun _ => id) id)

theorem invertOnce_aside (s : State) (a : AxisId) (o : OutId) : State.Aside s (s.invertOnce a o) := by
  unfold State.invertOnce
  simp only
  split
  · exact .refl s
  · exact (setOutput_aside (s := s) (o := o) (x := (s.output o).invertLatch) ⟨rfl, rfl⟩).trans
      (.of_latched rfl rfl (fun _ => id) id)

theorem aside_entryKept (s : State) : EntryKept (State.Aside s) where
  slot _ _ holds := holds.trans (.of_latched rfl rfl (fun _ => id) id)
  output holds tame := holds.trans (setOutput_aside (held_of_tame tame))
  invert a o holds := holds.trans (invertOnce_aside _ a o)
  drop _ _ holds := holds.trans (.of_latched rfl rfl (fun _ => id) id)
  report cause a p rev holds := holds.trans (reportFault_aside _ cause a p rev)
  channel _ _ holds _ := holds.trans (.of_latched rfl rfl (fun _ => id) id)

theorem applyClosed_aside (s : State) (a : AxisId) (announced : Bool) : State.Aside s (s.applyClosed a announced) :=
  (aside_listKept a announced s).applyClosed (.refl s)

theorem silenceAxis_aside (s : State) (a : AxisId) : State.Aside s (s.silenceAxis a) := by
  have ended : State.Aside s ((s.liveOf a).foldl State.endActivity s) :=
    Kept.foldl (fun _ h => (aside_listKept a true s).endActivity h) (s.liveOf a) (.refl s)
  unfold State.silenceAxis
  generalize (s.liveOf a).foldl State.endActivity s = t at ended
  exact ended.trans (.of_latched rfl rfl (fun _ => id) id)

/-! ### An axis whose entries are IDLE -/

/-- Every LIVE entry of an axis is IDLE. -/
def State.Hushed (s : State) (a : AxisId) : Prop :=
  ∀ h < Config.slotCount, ∀ e ok r, s.slot h = .live e ok r → e.axis = a → r.activity = .idle

theorem hushed_of_slots {s t : State} {a : AxisId} (same : ∀ h, t.slot h = s.slot h) (hushed : s.Hushed a) :
    t.Hushed a := fun h below e ok r live => hushed h below e ok r ((same h).symm.trans live)

theorem hushed_setSlot {s : State} {a : AxisId} {h : Nat} {v : Slot} (hushed : s.Hushed a)
    (calms : (s.slot h).Calms v) : (s.setSlot h v).Hushed a := by
  intro k below e ok r live own
  rw [State.setSlot_slot] at live
  split at live
  · next same =>
    subst same live
    by_contra active
    have acts : (Slot.live e ok r).isActive = true := by simpa [Slot.isActive] using active
    obtain ⟨was, entry⟩ := calms acts
    cases v : s.slot h with
    | live e' ok' r' =>
      rw [v] at was entry
      cases entry
      exact absurd (hushed h below _ ok' r' v own) (by simpa [Slot.isActive] using was)
    | _ => rw [v] at was; cases was
  · exact hushed k below e ok r live own

theorem silenceAxis_hushed (s : State) (a : AxisId) : (s.silenceAxis a).Hushed a := by
  intro h below e ok r live own
  rw [silenceAxis_slot] at live
  split at live
  · cases v : s.slot h with
    | live e' ok' r' => rw [v] at live; cases live; rfl
    | _ => rw [v] at live; cases live
  · next other => exact absurd ⟨below, by rw [live]; simpa [Slot.liveWith] using own⟩ other

theorem endActivity_hushes (s : State) (a : AxisId) (h : Nat) (hushed : s.Hushed a) : (s.endActivity h).Hushed a := by
  intro k below e ok r live own
  rw [endActivity_slot] at live
  split at live
  · cases v : s.slot h with
    | live e' ok' r' => rw [v] at live; cases live; rfl
    | _ => rw [v] at live; cases live
  · exact hushed k below e ok r live own

theorem reportFault_hushed {s : State} {b : AxisId} (cause : FaultCause) (a : AxisId) (p : Nat) (rev : BitVec 16)
    (hushed : s.Hushed b) : (s.reportFault cause a p rev).Hushed b :=
  hushed_of_slots (fun h => reportFault_slot s cause a p rev h) hushed

theorem hushed_listKept (x : AxisId) (announced : Bool) (a : AxisId) : ListKept x announced (fun s => s.Hushed a) where
  slot hushed calms := hushed_setSlot hushed calms
  output hushed _ _ := hushed_of_slots (fun _ => rfl) hushed
  list _ _ hushed := hushed_of_slots (fun _ => rfl) hushed
  latch _ hushed := hushed_of_slots (fun _ => rfl) hushed
  report cause b p rev hushed := reportFault_hushed cause b p rev hushed
  channel hushed _ _ := hushed_of_slots (fun _ => rfl) hushed

/-! ### What is left in a channel -/

section
variable {announced : Bool}

theorem Channel.Grows.refl (c : Channel) : c.Grows announced c := ⟨fun _ m => .inl m, fun _ m => .inl m⟩

theorem Channel.Grows.trans {c d e : Channel} (first : c.Grows announced d) (second : d.Grows announced e) :
    c.Grows announced e where
  kept t m := (first.kept t m).elim (second.kept t) .inr
  fresh t m := (second.fresh t m).elim (first.fresh t) .inr

theorem grows_listKept (x : AxisId) (s : State) (a : AxisId) :
    ListKept x announced (fun t => (s.channel a).Grows announced (t.channel a)) where
  slot holds _ := holds
  output holds _ _ := holds
  list _ _ holds := holds
  latch _ holds := holds
  report {t} cause b p rev holds := by
    have same : (t.reportFault cause b p rev).channel a = t.channel a := by
      unfold State.reportFault; split <;> rfl
    rw [same]; exact holds
  channel holds grows _ := by
    rw [State.setChannel_channel]
    split
    · next same => subst same; exact holds.trans grows
    · exact holds

/-- Which channels have stopped within an application: but for that of `x`, none that had not. -/
theorem applying_listKept (x b : AxisId) (other : b ≠ x) : ListKept x announced (fun s => s.applying b = false) where
  slot holds _ := holds
  output holds _ _ := holds
  list _ _ holds := holds
  latch _ holds := holds
  report cause a p rev holds := by
    unfold State.reportFault; split <;> exact holds
  channel {s a c} holds _ less := by
    unfold State.applying at holds ⊢
    rw [State.setChannel_channel]
    split
    · next same =>
      subst same
      rw [List.any_eq_false] at holds ⊢
      exact fun t m => holds t (less other m)
    · exact holds

end

end Sys2Proof.Machine
end

section
/-! SUPPORT. What an axis fault leaves, whatever the order of its claims and wherever the work of the channel stops
(`takeFault_taken`, R55). -/

namespace Sys2Proof.Machine

/-! ### Lists of turns -/

theorem nodup_eraseDups {α : Type} [BEq α] [LawfulBEq α] : ∀ xs : List α, xs.eraseDups.Nodup
  | [] => by simp
  | x :: xs => by
    rw [List.eraseDups_cons]
    refine List.nodup_cons.2 ⟨fun m => ?_, nodup_eraseDups _⟩
    simpa using (List.mem_filter.1 (List.mem_eraseDups.1 m)).2
termination_by xs => xs.length
decreasing_by simpa using Nat.lt_succ_of_le (List.length_filter_le _ xs)

theorem nodup_inTurn {α : Type} [BEq α] [LawfulBEq α] (given : List α) {all : List α} (nodup : all.Nodup) :
    (inTurn given all).Nodup := by
  refine List.nodup_append.2 ⟨nodup_eraseDups given, nodup.filter _, fun x m y m' same => ?_⟩
  subst same
  have not := (List.mem_filter.1 m').2
  rw [List.contains_iff_mem.2 (List.mem_eraseDups.1 m)] at not
  cases not

theorem mem_inTurn {α : Type} [BEq α] [LawfulBEq α] (given : List α) {all : List α} {x : α} (mem : x ∈ all) :
    x ∈ inTurn given all := by
  by_cases named : x ∈ given
  · exact List.mem_append_left _ (List.mem_eraseDups.2 named)
  · exact List.mem_append_right _ (List.mem_filter.2 ⟨mem, by simpa using named⟩)

/-- A turn that is taken once: what it makes of `pre`, the others keep. -/
theorem foldl_once {α β : Type} {f : β → α → β} {c : α} {pre post : β → Prop}
    (before : ∀ b d, d ≠ c → pre b → pre (f b d)) (turn : ∀ b, pre b → post (f b c))
    (after : ∀ b d, d ≠ c → post b → post (f b d)) {cs : List α} (nodup : cs.Nodup) (mem : c ∈ cs) {b : β}
    (holds : pre b) : post (cs.foldl f b) := by
  obtain ⟨first, last, rfl⟩ := List.append_of_mem mem
  have unnamed := (List.nodup_cons.1 (List.nodup_middle.1 nodup)).1
  rw [List.foldl_append, List.foldl_cons]
  have ne {d : α} (m : d ∈ first ∨ d ∈ last) : d ≠ c := by
    rintro rfl
    exact unnamed (List.mem_append.2 m)
  have keeps {Q : β → Prop} (each : ∀ b d, d ≠ c → Q b → Q (f b d)) :
      ∀ (ds : List α), (∀ d ∈ ds, d ≠ c) → ∀ b, Q b → Q (ds.foldl f b) := by
    intro ds
    induction ds with
    | nil => exact fun _ _ q => q
    | cons d ds ih =>
      exact fun all b q => ih (fun e m => all e (List.mem_cons_of_mem _ m)) _ (each b d (all d (by simp)) q)
  exact keeps after last (fun d m => ne (.inr m)) _ (turn _ (keeps before first (fun d m => ne (.inl m)) _ holds))

/-! ### The lists -/

@[simp] theorem endActivity_lists (s : State) (h : Nat) : (s.endActivity h).lists = s.lists := by
  unfold State.endActivity State.countDownFor
  split
  · split
    · rfl
    · split <;> rfl
  · rfl

@[simp] theorem silenceAxis_lists (s : State) (a : AxisId) : (s.silenceAxis a).lists = s.lists := by
  have ended := foldl_keeps State.lists State.endActivity endActivity_lists (s.liveOf a) s
  unfold State.silenceAxis
  generalize (s.liveOf a).foldl State.endActivity s = t at ended
  exact ended

theorem takeHandings_lists (s : State) (h : Nat) : (s.takeHandings h).lists = s.lists :=
  congrArg Prod.fst (takeHandings_frame s h)

@[simp] theorem applyItem_lists (s : State) (i : Item) : (s.applyItem i).lists = s.lists := by
  cases i with
  | place h =>
    simp only [State.applyItem, State.applyPlace]; split
    · rw [State.setSlot_lists, takeHandings_lists]
    · rfl
  | alter h v => simp only [State.applyItem, State.applyAlter]; split <;> simp
  | retire h => simp only [State.applyItem, State.applyRetire]; split <;> simp
  | setLead o lead =>
    have ended := foldl_keeps State.lists State.endActivity endActivity_lists (s.liveOn o) s
    simp only [State.applyItem, State.applyLead]
    generalize (s.liveOn o).foldl State.endActivity s = t at ended
    exact ended

@[simp] theorem runClaim_lists (s : State) (t : Task) : (s.runClaim t).lists = s.lists := by
  cases t with
  | hand h => simp only [State.runClaim, State.hand]; split <;> rfl
  | fenceReport h a p rev => exact reportFault_lists s _ a p rev
  | _ => rfl

theorem list_of_lists {s t : State} (same : t.lists = s.lists) (a : AxisId) : t.list a = s.list a := by
  unfold State.list; rw [same]

/-- Which lists are closed. -/
def State.closedLists (s : State) (a : AxisId) : Bool := (s.list a).closed

theorem closedLists_setList {s : State} {a : AxisId} {l : PendingList} (same : l.closed = (s.list a).closed) :
    (s.setList a l).closedLists = s.closedLists := by
  funext b
  simp only [State.closedLists, State.setList_list]
  split
  · next eq => rw [same, eq]
  · rfl

theorem closedLists_of_lists {s t : State} (same : t.lists = s.lists) : t.closedLists = s.closedLists :=
  funext fun a => congrArg PendingList.closed (list_of_lists same a)

/-- The work on entries neither closes a list nor opens one: a fence drops an item at most (R127). -/
theorem closedLists_entryKept (f : AxisId → Bool) : EntryKept (fun s => s.closedLists = f) where
  slot _ _ holds := holds
  output holds _ := holds
  invert {s} a o holds := by
    refine (closedLists_of_lists ?_).trans holds
    unfold State.invertOnce
    simp only
    split <;> rfl
  drop {s} a h holds := (closedLists_setList (s := s) (drop_closed _ h)).trans holds
  report {s} cause a p rev holds := (closedLists_of_lists (reportFault_lists s cause a p rev)).trans holds
  channel _ _ holds _ := holds

theorem passed_closedLists (s : State) (a : AxisId) (more : List Item) :
    (s.setList a { s.list a with items := more }).closedLists = s.closedLists := closedLists_setList rfl

theorem applyNext_closedLists (s : State) (a : AxisId) : (s.applyNext a).closedLists = s.closedLists := by
  unfold State.applyNext; split
  · rfl
  · next i more _ =>
    simp only
    split
    · refine (passed_closedLists _ a more).trans ?_
      cases i.handle? with
      | none => rfl
      | some h => exact (closedLists_entryKept s.closedLists).fenceFrom a h rfl
    · exact (closedLists_of_lists (applyItem_lists _ i)).trans (passed_closedLists s a more)

/-! ### The axes of a part at a fault -/

/-- The axis records of `t` are those of `s`, but for the silent end of `x` that waits. -/
structure State.AxesBut (x : AxisId) (s t : State) : Prop where
  own : t.axis x = { s.axis x with silentDue := (t.axis x).silentDue }
  others : ∀ y, y ≠ x → t.axis y = s.axis y

theorem State.AxesBut.of_axes {x : AxisId} {s t : State} (same : t.axes = s.axes) : State.AxesBut x s t :=
  ⟨by rw [axis_of_axes same], fun y _ => axis_of_axes same y⟩

theorem State.AxesBut.trans {x : AxisId} {s t u : State} (first : State.AxesBut x s t) (second : State.AxesBut x t u) :
    State.AxesBut x s u where
  own := by
    rw [second.own, first.own]
  others y ne := (second.others y ne).trans (first.others y ne)

/-- The work of the channel of a FAULTED axis changes its silent end alone. -/
theorem axesBut_of_worked {x : AxisId} {s t : State} (faulted : (s.axis x).state = .faulted) (worked : State.Worked x s t) :
    State.AxesBut x s t where
  own := by
    have state := worked.own.state.resolve_right (fun h => by rw [faulted] at h; cases h.1)
    have still := worked.own.unmoved (by simp [Axis.stepping, faulted])
    have referenced := worked.own.referenced (by simp [faulted])
    have fixed := worked.own.fixed
    rw [state, still.1, still.2, referenced] at fixed
    exact fixed
  others := worked.others

/-! ### A claim of a fault -/

/-- What a stop can leave of the work of a fault. -/
def Task.FromFault (later : Bool) (t : Task) : Prop := t.FromList true ∨ (later = false ∧ t = .silentEnd)

section
variable {x : AxisId} {cause : FaultCause} {tracked : Nat} {later : Bool}

/-- A turn of a channel with work that stops nowhere by itself: it is left behind other work, and taken otherwise. -/
theorem take_single (s : State) {t : Task} (plain : t.stop? = none) :
    s.take x [t] = if s.busy x then s.defer x t else s.run x t := by
  simp [State.take, State.takeVia, plain]

theorem faultClaim_silentEnd_now (s : State) : State.faultClaim x cause tracked false s .silentEnd
    = if s.busy x then s.defer x .silentEnd else s.silenceAxis x := take_single s rfl

theorem faultClaim_applyList (s : State) : State.faultClaim x cause tracked later s .applyList
    = if s.busy x then s.defer x (.application true) else s.applyClosed x true := take_single s rfl

theorem enterSafe_raises (s : State) : s.Raises s.enterSafe := by
  unfold State.enterSafe; split
  · exact fun _ => id
  · exact or_raises s.latched _

theorem finishRelease_raises (s : State) : s.Raises s.finishRelease := by
  unfold State.finishRelease; split
  · exact fun _ => id
  · exact or_raises s.latched _

theorem releaseAxis_raises (s : State) (a : AxisId) : s.Raises (s.releaseAxis a) := by
  unfold State.releaseAxis State.releaseWhere
  split
  · split
    · exact finishRelease_raises { s with outputs := s.outputs.map (Output.release (fun b => b == some a)) }
    · exact fun _ => id
  · exact fun _ => id

theorem faultToSafeState_raises (s : State) : s.Raises (s.faultToSafeState x) := by
  unfold State.faultToSafeState; split
  · exact enterSafe_raises s
  · exact releaseAxis_raises s x

/-- What the safe state leaves as it is. -/
def State.beyondSafety (s : State) : List (Nat × Slot) × Vector PendingList 4 × Vector Axis 4 × Vector Channel 4
    × Option Report := (s.table, s.lists, s.axes, s.channels, s.report)

theorem enterSafe_beyond (s : State) : s.enterSafe.beyondSafety = s.beyondSafety := by
  unfold State.enterSafe; split <;> rfl

theorem releaseAxis_beyond (s : State) (a : AxisId) : (s.releaseAxis a).beyondSafety = s.beyondSafety := by
  unfold State.releaseAxis State.releaseWhere State.finishRelease
  split
  · split
    · simp only
      split <;> rfl
    · rfl
  · rfl

theorem faultToSafeState_beyond (s : State) : (s.faultToSafeState x).beyondSafety = s.beyondSafety := by
  unfold State.faultToSafeState; split
  · exact enterSafe_beyond s
  · exact releaseAxis_beyond s x

end

end Sys2Proof.Machine
end

section
/-! SUPPORT. What an axis fault leaves, whatever the order of its claims and wherever the work of the channel stops
(`takeFault_taken`, R55). -/

namespace Sys2Proof.Machine

/-! ### What each claim of a fault keeps -/

section
variable {x : AxisId} {cause : FaultCause} {tracked : Nat} {later : Bool} {s : State}

theorem axesBut_setDue (s : State) (x : AxisId) (due : Bool) :
    State.AxesBut x s (s.setAxis x { s.axis x with silentDue := due }) :=
  ⟨by rw [State.setAxis_axis_self], fun y ne => by rw [State.setAxis_axis, if_neg (Ne.symm ne)]⟩

theorem reportFault_axes (s : State) (cause : FaultCause) (a : AxisId) (p : Nat) (rev : BitVec 16) :
    (s.reportFault cause a p rev).axes = s.axes := State.axes_of_still (reportFault_still s cause a p rev)

theorem faultToSafeState_axes (s : State) (a : AxisId) : (s.faultToSafeState a).axes = s.axes := by
  have beyond := faultToSafeState_beyond (x := a) s
  simp only [State.beyondSafety, Prod.mk.injEq] at beyond
  exact beyond.2.2.1

theorem faultClaim_axesBut (c : FaultClaim) (faulted : (s.axis x).state = .faulted) :
    State.AxesBut x s (State.faultClaim x cause tracked later s c) := by
  cases c with
  | silentEnd =>
    simp only [State.faultClaim]; split
    · exact axesBut_setDue s x true
    · exact axesBut_of_worked faulted (take_worked x _ s)
  | applyList => exact axesBut_of_worked faulted (take_worked x _ s)
  | report => exact .of_axes (reportFault_axes s cause x tracked _)
  | attention => exact .of_axes rfl
  | safeState => exact .of_axes (faultToSafeState_axes s x)

theorem aside_of_same {s t : State} (condition : t.condition = s.condition) (outputs : t.outputs = s.outputs)
    (latched : t.latched = s.latched) (report : t.report = s.report) : State.Aside s t :=
  .of_latched condition outputs (fun r => by rw [latched]; exact id) (by rw [report]; exact id)

/-- Every claim but the safe state's leaves the safe state as it is. -/
theorem faultClaim_aside (c : FaultClaim) (other : c ≠ .safeState) :
    State.Aside s (State.faultClaim x cause tracked later s c) := by
  cases c with
  | silentEnd =>
    cases later with
    | true => exact aside_of_same rfl rfl rfl rfl
    | false =>
      rw [faultClaim_silentEnd_now]; split
      · exact aside_of_same rfl rfl rfl rfl
      · exact silenceAxis_aside s x
  | applyList =>
    rw [faultClaim_applyList]; split
    · exact aside_of_same rfl rfl rfl rfl
    · exact applyClosed_aside s x true
  | report => exact reportFault_aside s cause x tracked _
  | attention => exact .of_latched rfl rfl (latch_raises s _) id
  | safeState => exact absurd rfl other

theorem faultClaim_raises (c : FaultClaim) : s.Raises (State.faultClaim x cause tracked later s c) := by
  by_cases safe : c = .safeState
  · subst safe; exact faultToSafeState_raises s
  · exact (faultClaim_aside c safe).raises

theorem faultToSafeState_report (s : State) (a : AxisId) : (s.faultToSafeState a).report = s.report := by
  have beyond := faultToSafeState_beyond (x := a) s
  simp only [State.beyondSafety, Prod.mk.injEq] at beyond
  exact beyond.2.2.2.2

theorem faultClaim_reported (c : FaultClaim) (reported : s.report.isSome = true) :
    (State.faultClaim x cause tracked later s c).report.isSome = true := by
  by_cases safe : c = .safeState
  · subst safe
    show (s.faultToSafeState x).report.isSome = true
    rwa [faultToSafeState_report]
  · exact (faultClaim_aside c safe).reported reported

theorem faultToSafeState_slot (s : State) (a : AxisId) (h : Nat) : (s.faultToSafeState a).slot h = s.slot h := by
  have beyond := faultToSafeState_beyond (x := a) s
  simp only [State.beyondSafety, Prod.mk.injEq] at beyond
  simp only [State.slot, beyond.1]

theorem faultClaim_hushed (c : FaultClaim) (hushed : s.Hushed x) :
    (State.faultClaim x cause tracked later s c).Hushed x := by
  cases c with
  | silentEnd =>
    cases later with
    | true => exact hushed_of_slots (fun _ => rfl) hushed
    | false =>
      rw [faultClaim_silentEnd_now]; split
      · exact hushed_of_slots (fun _ => rfl) hushed
      · exact silenceAxis_hushed s x
  | applyList =>
    rw [faultClaim_applyList]; split
    · exact hushed_of_slots (fun _ => rfl) hushed
    · exact (hushed_listKept x true x).applyClosed hushed
  | report => exact reportFault_hushed cause x tracked _ hushed
  | attention => exact hushed_of_slots (fun _ => rfl) hushed
  | safeState => exact hushed_of_slots (faultToSafeState_slot s x) hushed

/-- What the work of a fault leaves in the channel: handings apart, what was left stays left; new is what a stop
leaves. -/
structure State.Leaves (later : Bool) (x : AxisId) (s t : State) : Prop where
  kept : ∀ u ∈ (s.channel x).rest, u ∈ (t.channel x).rest ∨ ∃ h, u = .hand h
  fresh : ∀ u ∈ (t.channel x).rest, u ∈ (s.channel x).rest ∨ u.FromFault later

theorem State.Leaves.of_channels {s t : State} (same : (t.channel x).rest = (s.channel x).rest) :
    State.Leaves later x s t := ⟨fun _ m => .inl (same ▸ m), fun _ m => .inl (same ▸ m)⟩

theorem State.Leaves.of_grows {s t : State} (grows : (s.channel x).Grows true (t.channel x)) :
    State.Leaves later x s t := ⟨grows.kept, fun u m => (grows.fresh u m).imp_right .inl⟩

theorem defer_rest (s : State) (a : AxisId) (t : Task) :
    ((s.defer a t).channel a).rest = (s.channel a).rest ++ [t] := by
  rw [State.defer, State.setChannel_channel_self]

theorem defer_leaves (s : State) {t : Task} (fits : t.FromFault later) : State.Leaves later x s (s.defer x t) where
  kept u m := .inl (by rw [defer_rest]; exact List.mem_append_left _ m)
  fresh u m := by
    rw [defer_rest] at m
    rcases List.mem_append.1 m with m | m
    · exact .inl m
    · exact .inr (List.mem_singleton.1 m ▸ fits)

theorem channel_faultToSafeState (s : State) (a b : AxisId) : (s.faultToSafeState a).channel b = s.channel b := by
  have beyond := faultToSafeState_beyond (x := a) s
  simp only [State.beyondSafety, Prod.mk.injEq] at beyond
  simp only [State.channel, beyond.2.2.2.1]

theorem reportFault_channel (s : State) (cause : FaultCause) (a b : AxisId) (p : Nat) (rev : BitVec 16) :
    (s.reportFault cause a p rev).channel b = s.channel b := by
  unfold State.reportFault; split <;> rfl

theorem faultClaim_leaves (s : State) (c : FaultClaim) :
    State.Leaves later x s (State.faultClaim x cause tracked later s c) := by
  cases c with
  | silentEnd =>
    cases later with
    | true => exact .of_channels rfl
    | false =>
      rw [faultClaim_silentEnd_now]; split
      · exact defer_leaves s (.inr ⟨rfl, rfl⟩)
      · exact .of_channels (silenceAxis_channels s x x)
  | applyList =>
    rw [faultClaim_applyList]; split
    · exact defer_leaves s (.inl (.inl rfl))
    · exact .of_grows ((grows_listKept x s x).applyClosed (Channel.Grows.refl _))
  | report => exact .of_channels (by rw [State.faultClaim, reportFault_channel])
  | attention => exact .of_channels rfl
  | safeState => exact .of_channels (by rw [State.faultClaim, channel_faultToSafeState])

/-- Every claim but the application leaves the lists. -/
theorem faultClaim_lists (c : FaultClaim) (other : c ≠ .applyList) :
    (State.faultClaim x cause tracked later s c).lists = s.lists := by
  cases c with
  | silentEnd =>
    cases later with
    | true => rfl
    | false =>
      rw [faultClaim_silentEnd_now]; split
      · rfl
      · exact silenceAxis_lists s x
  | applyList => exact absurd rfl other
  | report => exact reportFault_lists s cause x tracked _
  | attention => rfl
  | safeState =>
    have beyond := faultToSafeState_beyond (x := x) s
    simp only [State.beyondSafety, Prod.mk.injEq] at beyond
    exact beyond.2.1

/-! ### The end of the work a fault has left -/

/-- The state in which the channel of `x` ends its work: nothing left in it, and no stop ahead. -/
def State.emptied (s : State) (x : AxisId) : State :=
  { s with stops := [] }.setChannel x { s.channel x with rest := [] }

theorem emptied_free (s : State) (x : AxisId) : Free x (s.emptied x) :=
  (free_iff x _).2 ⟨rfl, by rw [State.emptied, State.setChannel_channel_self]⟩

/-- The end of a piece of work: the tasks left, one after the other (R57). -/
theorem finish_eq (s : State) (x : AxisId) : s.finish x
    = { (s.channel x).rest.foldl (State.run x) (s.emptied x) with stops := s.stops } :=
  congrArg (fun t : State => { t with stops := s.stops }) (take_free _ (s.channel x).rest (emptied_free s x)).1

/-- What every task left keeps of a free channel, the end of the work keeps. -/
theorem finish_keeps {P : State → Prop} {T : Task → Prop} (fits : ∀ t ∈ (s.channel x).rest, T t)
    (runs : ∀ u t, Free x u → T t → P u → P (u.run x t)) (stops : ∀ u l, P u → P { u with stops := l })
    (emptied : P (s.emptied x)) : P (s.finish x) := by
  rw [finish_eq]
  refine stops _ _ (foldl_keepsProp (P := fun u => P u ∧ Free x u) (fun u t p fits => ?_) _ fits
    ⟨emptied, emptied_free s x⟩).1
  exact ⟨runs u t p.2 fits p.1, run_keepsFree u t p.2⟩

/-- What a task left brings about from a state that the others keep, and they keep as well, holds at the end. -/
theorem finish_does {P Q : State → Prop} {T : Task → Prop} {t : Task} (mem : t ∈ (s.channel x).rest)
    (fits : ∀ t ∈ (s.channel x).rest, T t) (before : ∀ u t, Free x u → T t → P u → P (u.run x t))
    (turn : ∀ u, Free x u → P u → Q (u.run x t)) (after : ∀ u t, Free x u → T t → Q u → Q (u.run x t))
    (stops : ∀ u l, Q u → Q { u with stops := l }) (emptied : P (s.emptied x)) : Q (s.finish x) := by
  have free (u : State) (v : Task) (f : Free x u) : Free x (u.run x v) := run_keepsFree u v f
  rw [finish_eq]
  obtain ⟨first, last, split⟩ := List.append_of_mem mem
  rw [split] at fits ⊢
  rw [List.foldl_append, List.foldl_cons]
  have begun := foldl_keepsProp (P := fun u => P u ∧ Free x u) (fun u v p fits => ⟨before u v p.2 fits p.1, free u v p.2⟩)
    first (fun v m => fits v (by simp [m])) ⟨emptied, emptied_free s x⟩
  exact stops _ _ (foldl_keepsProp (P := fun u => Q u ∧ Free x u)
    (fun u v p fits => ⟨after u v p.2 fits p.1, free u v p.2⟩) last (fun v m => fits v (by simp [m]))
    ⟨turn _ begun.2 begun.1, free _ t begun.2⟩).1

theorem run_application (a : AxisId) (s : State) (announced : Bool) :
    s.run a (.application announced) = s.applyClosed a announced := rfl

theorem run_silentEnd (a : AxisId) (s : State) : s.run a .silentEnd = s.silenceAxis a := rfl

/-- A property that applications, claims of fences and silent ends keep, the tasks a fault can leave keep. -/
theorem run_fromFault {P : State → Prop} (list : ListKept x true P) (silence : ∀ s, P s → P (s.silenceAxis x)) {t : Task}
    (fits : t.FromFault later) (holds : P s) : P (s.run x t) := by
  rcases fits with (rfl | ⟨h, o, kind, act, rfl⟩ | ⟨h, a, p, rev, rfl⟩) | ⟨-, rfl⟩
  · exact list.applyClosed holds
  · exact list.runClaim (.fenceOutput h o kind act) holds
  · exact list.runClaim (.fenceReport h a p rev) holds
  · exact silence s holds

theorem emptied_aside (s : State) (x : AxisId) : State.Aside s (s.emptied x) := aside_of_same rfl rfl rfl rfl

/-- Ending the work a fault has left leaves the safe state as it is. -/
theorem finish_aside (fits : ∀ t ∈ (s.channel x).rest, t.FromFault later) : State.Aside s (s.finish x) :=
  finish_keeps (P := State.Aside s) fits
    (fun _ _ _ fits holds => run_fromFault (aside_listKept x true s) (fun u h => h.trans (silenceAxis_aside u x)) fits holds)
    (fun _ _ holds => holds.trans (aside_of_same rfl rfl rfl rfl)) (emptied_aside s x)

theorem finish_hushed (fits : ∀ t ∈ (s.channel x).rest, t.FromFault later) (hushed : s.Hushed x) :
    (s.finish x).Hushed x :=
  finish_keeps (P := fun u => u.Hushed x) fits
    (fun _ _ _ fits holds => run_fromFault (hushed_listKept x true x) (fun u _ => silenceAxis_hushed u x) fits holds)
    (fun _ _ holds => hushed_of_slots (fun _ => rfl) holds) (hushed_of_slots (fun _ => rfl) hushed)

end

end Sys2Proof.Machine
end

section
/-! SUPPORT. What the safe state makes of an axis fault (R148, R150, R151), and what an axis fault leaves (`takeFault_taken`,
R55). -/

namespace Sys2Proof.Machine

/-! ### The safe state -/

theorem any_outputs (s : State) (p : Output → Bool) : s.outputs.toList.any p = true ↔ ∃ o, p (s.output o) = true := by
  simp only [List.any_eq_true, Vector.mem_toList_iff, Vector.mem_iff_getElem]
  constructor
  · rintro ⟨_, ⟨i, below, rfl⟩, holds⟩
    exact ⟨⟨i, below⟩, holds⟩
  · rintro ⟨o, holds⟩
    exact ⟨s.output o, ⟨o, o.isLt, rfl⟩, holds⟩

theorem anySafeHold_iff (s : State) : s.anySafeHold = true ↔ ∃ o, (s.output o).safeHold = true :=
  any_outputs s (fun x => x.safeHold)

theorem output_map (s : State) (f : Output → Output) (o : OutId) :
    ({ s with outputs := s.outputs.map f } : State).output o = f (s.output o) := by
  simp [State.output]

theorem State.Aside.anySafeHold {s t : State} (aside : State.Aside s t) : t.anySafeHold = s.anySafeHold := by
  rw [Bool.eq_iff_iff, anySafeHold_iff, anySafeHold_iff]
  simp only [(aside.held _).1]

theorem setSafeHold_holds (x : Output) : x.setSafeHold.safeHold = true := by
  unfold Output.setSafeHold; split
  · assumption
  · rfl

/-- Every output has its safe hold after an entry into SAFE that takes place (R146). -/
theorem enterSafe_of_ne {s : State} (outside : s.condition ≠ .safe) : s.enterSafe.condition = .safe
    ∧ s.enterSafe.latched &&& reasonSafeEntered = reasonSafeEntered ∧ ∀ o, (s.enterSafe.output o).safeHold = true := by
  have entered : s.enterSafe =
      ({ { s with condition := .safe } with outputs := s.outputs.map Output.setSafeHold } : State).latch
        reasonSafeEntered := by
    unfold State.enterSafe; rw [if_neg outside]
  rw [entered]
  refine ⟨rfl, latch_sets _ _, fun o => ?_⟩
  exact (congrArg Output.safeHold (output_map { s with condition := .safe } Output.setSafeHold o)).trans
    (setSafeHold_holds _)

theorem enterSafe_of_safe {s : State} (safe : s.condition = .safe) : s.enterSafe = s := by
  unfold State.enterSafe; rw [if_pos safe]

/-- The condition after the controller has looked at the safe holds (R150). -/
theorem finishRelease_condition (s : State) :
    s.finishRelease.condition = (if s.anySafeHold then s.condition else .normal)
      ∧ (s.anySafeHold = false → s.finishRelease.latched &&& reasonSafeReleased = reasonSafeReleased)
      ∧ s.finishRelease.outputs = s.outputs := by
  unfold State.finishRelease
  cases s.anySafeHold with
  | true => exact ⟨rfl, nofun, rfl⟩
  | false => exact ⟨rfl, fun _ => latch_sets _ _, rfl⟩

theorem release_fields (p : Option AxisId → Bool) (x : Output) :
    (x.release p).safeHold = (x.safeHold && !p x.binding) ∧ (x.release p).binding = x.binding := by
  unfold Output.release Output.released
  cases held : x.safeHold <;> cases taken : p x.binding <;> simp [held]

/-- What the release of an axis leaves in RELEASING: none of its outputs keeps its safe hold, and the condition is RELEASING
while any output has one (R150, R151). -/
structure State.Released (s : State) (a : AxisId) (t : State) : Prop where
  holds : ∀ o, (t.output o).safeHold = ((s.output o).safeHold && (s.output o).binding != some a)
  ends : (∃ o, (s.output o).safeHold = true ∧ (s.output o).binding = some a) →
    t.condition = if t.anySafeHold then .releasing else .normal
  stays : (∀ o, (s.output o).safeHold = true → (s.output o).binding ≠ some a) → t.condition = .releasing
  told : t.condition = .normal → t.latched &&& reasonSafeReleased = reasonSafeReleased

theorem releaseAxis_of_releasing {s : State} (releasing : s.condition = .releasing) (a : AxisId) :
    s.Released a (s.releaseAxis a) := by
  have some_ : s.outputs.toList.any (Output.released (fun b => b == some a)) = true
      ↔ ∃ o, (s.output o).safeHold = true ∧ (s.output o).binding = some a := by
    rw [any_outputs]
    simp [Output.released]
  unfold State.releaseAxis State.releaseWhere
  rw [if_pos releasing]
  split
  · next any =>
    obtain ⟨condition, told, outputs⟩ :=
      finishRelease_condition { s with outputs := s.outputs.map (Output.release (fun b => b == some a)) }
    have same (o : OutId) := congrArg (fun v : Vector Output 32 => v[o]) outputs
    have held : State.anySafeHold (State.finishRelease
        { s with outputs := s.outputs.map (Output.release (fun b => b == some a)) })
        = State.anySafeHold { s with outputs := s.outputs.map (Output.release (fun b => b == some a)) } := by
      simp only [State.anySafeHold, outputs]
    refine ⟨fun o => ?_, fun _ => ?_, fun none => ?_, fun normal => told ?_⟩
    · exact (congrArg Output.safeHold ((same o).trans (output_map s _ o))).trans (release_fields _ _).1
    · rw [condition, held]
      simp only [releasing]
    · obtain ⟨o, hold, own⟩ := some_.1 any
      exact absurd own (none o hold)
    · rw [condition] at normal
      split at normal
      · simp only [releasing] at normal; cases normal
      · next none => exact Bool.eq_false_iff.2 none
  · next none =>
    have unheld : ∀ o, (s.output o).safeHold = true → (s.output o).binding ≠ some a :=
      fun o hold own => none (some_.2 ⟨o, hold, own⟩)
    refine ⟨fun o => ?_, fun ⟨o, hold, own⟩ => absurd own (unheld o hold), fun _ => releasing, fun normal => ?_⟩
    · cases hold : (s.output o).safeHold with
      | false => rfl
      | true => simp [unheld o hold]
    · rw [releasing] at normal; cases normal

theorem State.Released.of_aside {s u t v : State} {a : AxisId} (before : State.Aside s u) (released : u.Released a t)
    (after : State.Aside t v) : s.Released a v := by
  have same (o : OutId) : (u.output o).safeHold = (s.output o).safeHold ∧ (u.output o).binding = (s.output o).binding :=
    before.held o
  refine ⟨fun o => ?_, fun ⟨o, hold, own⟩ => ?_, fun none => ?_, fun normal => ?_⟩
  · rw [(after.held o).1, released.holds, (same o).1, (same o).2]
  · rw [after.condition, after.anySafeHold]
    exact released.ends ⟨o, (same o).1.trans hold, (same o).2.trans own⟩
  · rw [after.condition]
    exact released.stays (fun o hold => by rw [(same o).2]; exact none o ((same o).1.symm.trans hold))
  · exact after.raises _ (released.told (after.condition.symm.trans normal))

/-! ### The claims of a fault, all taken -/

section
variable {x : AxisId} {cause : FaultCause} {tracked : Nat} {later : Bool} {s : State} {cs : List FaultClaim}

/-- The five claims of a fault in some order, each once. -/
def FaultTurns (cs : List FaultClaim) : Prop := cs.Nodup ∧ ∀ c, c ∈ cs

theorem inTurn_turns (given : List FaultClaim) : FaultTurns (inTurn given faultClaims) :=
  ⟨nodup_inTurn given (by decide), fun c => mem_inTurn given (by cases c <;> decide)⟩

/-- The state in which the claims of a fault have been taken, or left in the channel. -/
abbrev State.afterClaims (s : State) (x : AxisId) (cause : FaultCause) (tracked : Nat) (later : Bool)
    (cs : List FaultClaim) : State := cs.foldl (State.faultClaim x cause tracked later) s

theorem afterClaims_axesBut (faulted : (s.axis x).state = .faulted) :
    State.AxesBut x s (s.afterClaims x cause tracked later cs) :=
  Kept.foldl (P := State.AxesBut x s) (fun t c but => but.trans (faultClaim_axesBut c (by rw [but.own]; exact faulted)))
    cs (.of_axes rfl)

theorem afterClaims_leaves (quiet : (s.channel x).rest = []) :
    ∀ t ∈ ((s.afterClaims x cause tracked later cs).channel x).rest, t.FromFault later :=
  Kept.foldl (P := fun u => ∀ t ∈ (u.channel x).rest, t.FromFault later) (f := State.faultClaim x cause tracked later)
    (fun u c fits t m => ((faultClaim_leaves u c).fresh t m).elim (fits t) id) cs (by rw [quiet]; exact nofun)

theorem afterClaims_raises {r : ReasonSet} {c : FaultClaim} (turns : FaultTurns cs)
    (turn : ∀ u, (State.faultClaim x cause tracked later u c).latched &&& r = r) :
    (s.afterClaims x cause tracked later cs).latched &&& r = r :=
  foldl_once (pre := fun _ => True) (post := fun u : State => u.latched &&& r = r) (fun _ _ _ _ => trivial)
    (fun u _ => turn u) (fun _ d _ set => faultClaim_raises d r set) turns.1 (turns.2 c) trivial

theorem afterClaims_reported (turns : FaultTurns cs) : (s.afterClaims x cause tracked later cs).report.isSome = true :=
  foldl_once (c := FaultClaim.report) (pre := fun _ => True) (post := fun u : State => u.report.isSome = true)
    (fun _ _ _ _ => trivial) (fun u _ => reportFault_isSome u cause x tracked _) (fun _ d _ some => faultClaim_reported d some)
    turns.1 (turns.2 _) trivial

/-- Around the safe state's own claim nothing touches the safe state. -/
theorem afterClaims_safety (faulted : (s.axis x).state = .faulted) (turns : FaultTurns cs) :
    ∃ u, State.AxesBut x s u ∧ State.Aside s u
      ∧ State.Aside (u.faultToSafeState x) (s.afterClaims x cause tracked later cs) :=
  foldl_once (c := .safeState) (pre := fun u => State.AxesBut x s u ∧ State.Aside s u)
    (post := fun w => ∃ u, State.AxesBut x s u ∧ State.Aside s u ∧ State.Aside (u.faultToSafeState x) w)
    (fun u c other ⟨but, aside⟩ =>
      ⟨but.trans (faultClaim_axesBut c (by rw [but.own]; exact faulted)), aside.trans (faultClaim_aside c other)⟩)
    (fun u ⟨but, aside⟩ => ⟨u, but, aside, .refl _⟩)
    (fun w c other ⟨u, but, aside, after⟩ => ⟨u, but, aside, after.trans (faultClaim_aside c other)⟩)
    turns.1 (turns.2 _) ⟨.of_axes rfl, .refl s⟩

/-- The silent end waits where the order says so. -/
theorem afterClaims_later (turns : FaultTurns cs) :
    ((s.afterClaims x cause tracked true cs).axis x).silentDue = true := by
  have keeps (u : State) (c : FaultClaim) (other : c ≠ .silentEnd) :
      (State.faultClaim x cause tracked true u c).axes = u.axes := by
    cases c with
    | silentEnd => exact absurd rfl other
    | applyList =>
      rw [faultClaim_applyList]; split
      · rfl
      · exact applyClosed_axes u x true
    | report => exact reportFault_axes u cause x tracked _
    | attention => rfl
    | safeState => exact faultToSafeState_axes u x
  exact foldl_once (c := .silentEnd) (pre := fun _ => True) (post := fun u : State => (u.axis x).silentDue = true)
    (fun _ _ _ _ => trivial)
    (fun u _ => congrArg Axis.silentDue (State.setAxis_axis_self u x { u.axis x with silentDue := true }))
    (fun u c other due => by rw [axis_of_axes (keeps u c other)]; exact due) turns.1 (turns.2 _) trivial

/-- The silent end of an axis has been taken: it does not wait, and every entry is IDLE. -/
def State.Ended (s : State) (x : AxisId) : Prop := (s.axis x).silentDue = false ∧ s.Hushed x

theorem silenceAxis_ended (s : State) (x : AxisId) : (s.silenceAxis x).Ended x :=
  ⟨by rw [silenceAxis_axis, if_pos rfl], silenceAxis_hushed s x⟩

theorem faultClaim_ended (c : FaultClaim) (ended : s.Ended x) :
    (State.faultClaim x cause tracked false s c).Ended x := by
  refine ⟨?_, faultClaim_hushed c ended.2⟩
  cases c with
  | silentEnd =>
    rw [faultClaim_silentEnd_now]; split
    · exact ended.1
    · exact (silenceAxis_ended s x).1
  | applyList =>
    rw [faultClaim_applyList]; split
    · exact ended.1
    · rw [axis_of_axes (applyClosed_axes s x true)]; exact ended.1
  | report => rw [State.faultClaim, axis_of_axes (reportFault_axes s cause x tracked _)]; exact ended.1
  | attention => exact ended.1
  | safeState => rw [State.faultClaim, axis_of_axes (faultToSafeState_axes s x)]; exact ended.1

/-- The silent end is taken, or left in the channel. -/
theorem afterClaims_ended (turns : FaultTurns cs) :
    (s.afterClaims x cause tracked false cs).Ended x
      ∨ Task.silentEnd ∈ ((s.afterClaims x cause tracked false cs).channel x).rest :=
  foldl_once (c := .silentEnd) (pre := fun _ => True)
    (post := fun u : State => u.Ended x ∨ Task.silentEnd ∈ (u.channel x).rest) (fun _ _ _ _ => trivial)
    (fun u _ => by
      rw [faultClaim_silentEnd_now]; split
      · exact .inr (by rw [defer_rest]; exact List.mem_append_right _ (List.mem_singleton_self _))
      · exact .inl (silenceAxis_ended u x))
    (fun u c _ done => done.imp (faultClaim_ended c) (fun left =>
      ((faultClaim_leaves u c).kept _ left).resolve_right (fun ⟨_, hand⟩ => Task.noConfusion hand)))
    turns.1 (turns.2 _) trivial

/-- A closed list has been applied: it is empty and open, and BATCH_APPLIED is set (R119, R125). -/
def State.Applied (s : State) (x : AxisId) : Prop :=
  (s.list x).closed = false ∧ (s.list x).items = [] ∧ s.latched &&& reasonBatchApplied = reasonBatchApplied

theorem applied_of_lists {s t : State} (lists : t.lists = s.lists) (raises : s.Raises t) (applied : s.Applied x) :
    t.Applied x := by
  rw [State.Applied, list_of_lists lists]
  exact ⟨applied.1, applied.2.1, raises _ applied.2.2⟩

theorem endApplication_applied (s : State) (x : AxisId) : (s.endApplication x true).Applied x := by
  refine ⟨by rw [endApplication_list], by rw [endApplication_list], ?_⟩
  simp only [State.endApplication, if_true]
  exact latch_sets _ _

/-- The application of a closed list is carried out to its end, or left where its work stops (R119). -/
theorem applyClosed_applied (closed : (s.list x).closed = true) : (s.applyClosed x true).Applied x
    ∨ (((s.applyClosed x true).list x).closed = true ∧ Task.application true ∈ ((s.applyClosed x true).channel x).rest) := by
  have items : ∀ xs : List Item,
      (xs.foldl (fun (t : State) _ => if t.busy x then t else t.applyNext x) s).closedLists = s.closedLists :=
    fun xs => foldl_keeps State.closedLists _ (fun t _ => by
      split
      · rfl
      · exact applyNext_closedLists t x) xs s
  unfold State.applyClosed
  rw [if_pos closed]
  simp only
  split
  · exact .inr ⟨(congrFun (items _) x).trans closed, by
      rw [defer_rest]; exact List.mem_append_right _ (List.mem_singleton_self _)⟩
  · exact .inl (endApplication_applied _ x)

theorem applyClosed_open (opened : (s.list x).closed = false) (announced : Bool) :
    s.applyClosed x announced = s := by
  unfold State.applyClosed; rw [if_neg (by simp [opened])]

/-- The application of a closed list is carried out, or left in the channel. -/
theorem afterClaims_applied (turns : FaultTurns cs) (closed : (s.list x).closed = true) :
    (s.afterClaims x cause tracked later cs).Applied x
      ∨ (((s.afterClaims x cause tracked later cs).list x).closed = true
        ∧ Task.application true ∈ ((s.afterClaims x cause tracked later cs).channel x).rest) :=
  foldl_once (c := .applyList) (pre := fun u : State => (u.list x).closed = true)
    (post := fun u : State => u.Applied x ∨ ((u.list x).closed = true ∧ Task.application true ∈ (u.channel x).rest))
    (fun u c other closed => by rw [list_of_lists (faultClaim_lists c other)]; exact closed)
    (fun u closed => by
      rw [faultClaim_applyList]; split
      · exact .inr ⟨closed, by rw [defer_rest]; exact List.mem_append_right _ (List.mem_singleton_self _)⟩
      · exact applyClosed_applied closed)
    (fun u c other done => done.imp (applied_of_lists (faultClaim_lists c other) (faultClaim_raises c)) (fun left =>
      ⟨by rw [list_of_lists (faultClaim_lists c other)]; exact left.1,
        ((faultClaim_leaves u c).kept _ left.2).resolve_right (fun ⟨_, hand⟩ => Task.noConfusion hand)⟩))
    turns.1 (turns.2 _) closed

end

end Sys2Proof.Machine
end

section
/-! SUPPORT. What an axis fault leaves, whatever the order of its claims and wherever the work of the channel stops
(`takeFault_taken`, R55). -/

namespace Sys2Proof.Machine

section
variable {x : AxisId} {cause : FaultCause} {tracked : Nat} {later : Bool} {s : State} {cs : List FaultClaim}

/-! ### With no closed list -/

/-- No work is left in the channel of an axis, and its list is the open list `l`. -/
def State.Unlisted (s : State) (x : AxisId) (l : PendingList) : Prop := (s.channel x).rest = [] ∧ s.list x = l

theorem faultClaim_unlisted {l : PendingList} (opened : l.closed = false) (c : FaultClaim) (unlisted : s.Unlisted x l) :
    (State.faultClaim x cause tracked later s c).Unlisted x l := by
  obtain ⟨quiet, list⟩ := unlisted
  have idle : s.busy x = false := by simp [State.busy, quiet]
  by_cases applies : c = .applyList
  · subst applies
    rw [faultClaim_applyList, idle, if_neg Bool.false_ne_true, applyClosed_open (by rw [list]; exact opened)]
    exact ⟨quiet, list⟩
  · refine ⟨?_, by rw [list_of_lists (faultClaim_lists c applies)]; exact list⟩
    cases c with
    | silentEnd =>
      cases later with
      | true => exact quiet
      | false =>
        rw [faultClaim_silentEnd_now, idle, if_neg Bool.false_ne_true, silenceAxis_channels]
        exact quiet
    | applyList => exact absurd rfl applies
    | report => rw [State.faultClaim, reportFault_channel]; exact quiet
    | attention => exact quiet
    | safeState => rw [State.faultClaim, channel_faultToSafeState]; exact quiet

theorem endActivity_report (s : State) (h : Nat) : (s.endActivity h).report = s.report := by
  unfold State.endActivity State.countDownFor
  split
  · split
    · rfl
    · split <;> rfl
  · rfl

theorem silenceAxis_report (s : State) (a : AxisId) : (s.silenceAxis a).report = s.report := by
  have ended := foldl_keeps State.report State.endActivity endActivity_report (s.liveOf a) s
  unfold State.silenceAxis
  generalize (s.liveOf a).foldl State.endActivity s = t at ended
  exact ended

/-- With no closed list the report takes the fault alone. -/
theorem faultClaim_report {l : PendingList} (opened : l.closed = false) (c : FaultClaim) (other : c ≠ .report)
    (unlisted : s.Unlisted x l) : (State.faultClaim x cause tracked later s c).report = s.report := by
  obtain ⟨quiet, list⟩ := unlisted
  have idle : s.busy x = false := by simp [State.busy, quiet]
  cases c with
  | silentEnd =>
    cases later with
    | true => rfl
    | false =>
      rw [faultClaim_silentEnd_now, idle, if_neg Bool.false_ne_true]
      exact silenceAxis_report s x
  | applyList =>
    rw [faultClaim_applyList, idle, if_neg Bool.false_ne_true, applyClosed_open (by rw [list]; exact opened)]
  | report => exact absurd rfl other
  | attention => rfl
  | safeState => exact faultToSafeState_report s x

/-- The report after a fault: it fills an invalid report, or is counted (R164). -/
def Report.taken (before : Option Report) (cause : FaultCause) (a : AxisId) (p : Nat) (rev : BitVec 16) : Report :=
  match before with
  | none => ⟨cause, a, p, rev, 0⟩
  | some r => { r with further := if r.further < 255 then r.further + 1 else r.further }

theorem reportFault_eq (s : State) (cause : FaultCause) (a : AxisId) (p : Nat) (rev : BitVec 16) :
    (s.reportFault cause a p rev).report = some (Report.taken s.report cause a p rev) := by
  unfold State.reportFault Report.taken
  split <;> simp_all

theorem afterClaims_unlisted (turns : FaultTurns cs) (faulted : (s.axis x).state = .faulted)
    (quiet : (s.channel x).rest = []) (opened : (s.list x).closed = false) :
    (s.afterClaims x cause tracked later cs).Unlisted x (s.list x)
      ∧ (s.afterClaims x cause tracked later cs).report
        = some (Report.taken s.report cause x tracked (s.axis x).revolution) :=
  foldl_once (c := FaultClaim.report)
    (pre := fun u : State => u.Unlisted x (s.list x) ∧ u.report = s.report ∧ State.AxesBut x s u)
    (post := fun u : State => u.Unlisted x (s.list x)
      ∧ u.report = some (Report.taken s.report cause x tracked (s.axis x).revolution))
    (fun u c other ⟨unlisted, report, but⟩ => ⟨faultClaim_unlisted opened c unlisted,
      (faultClaim_report opened c other unlisted).trans report,
      but.trans (faultClaim_axesBut c (by rw [but.own]; exact faulted))⟩)
    (fun u ⟨unlisted, report, but⟩ => ⟨faultClaim_unlisted opened .report unlisted, by
      rw [State.faultClaim, reportFault_eq, report, but.own]⟩)
    (fun u c other ⟨unlisted, report⟩ => ⟨faultClaim_unlisted opened c unlisted,
      (faultClaim_report opened c other unlisted).trans report⟩)
    turns.1 (turns.2 _) ⟨⟨quiet, rfl⟩, rfl, .of_axes rfl⟩

/-! ### The end of the work of a fault -/

theorem run_axes {t : Task} (fits : t.FromList true) : (s.run x t).axes = s.axes := by
  rcases fits with rfl | ⟨h, o, kind, act, rfl⟩ | ⟨h, a, p, rev, rfl⟩
  · exact applyClosed_axes s x true
  · rfl
  · exact reportFault_axes s (.entryCheck h) a p rev

theorem finish_due (fits : ∀ t ∈ (s.channel x).rest, t.FromFault true) (due : (s.axis x).silentDue = true) :
    ((s.finish x).axis x).silentDue = true :=
  finish_keeps (P := fun u => (u.axis x).silentDue = true) (T := fun t => t.FromList true)
    (fun t m => (fits t m).resolve_right (fun not => Bool.noConfusion not.1))
    (fun _ _ _ fits due => by rw [axis_of_axes (run_axes fits)]; exact due) (fun _ _ due => due) due

theorem run_ended {t : Task} (fits : t.FromFault later) (ended : s.Ended x) : (s.run x t).Ended x := by
  refine ⟨?_, run_fromFault (hushed_listKept x true x) (fun u _ => silenceAxis_hushed u x) fits ended.2⟩
  rcases fits with fits | ⟨-, rfl⟩
  · rw [axis_of_axes (run_axes fits)]; exact ended.1
  · exact (silenceAxis_ended s x).1

theorem ended_stops (u : State) (l : List StopPoint) (ended : u.Ended x) : ({ u with stops := l } : State).Ended x :=
  ⟨ended.1, hushed_of_slots (fun _ => rfl) ended.2⟩

/-- Once the channel has ended what a fault has left, the silent end has been taken. -/
theorem finish_ended (fits : ∀ t ∈ (s.channel x).rest, t.FromFault later)
    (done : s.Ended x ∨ Task.silentEnd ∈ (s.channel x).rest) : (s.finish x).Ended x := by
  rcases done with ended | left
  · exact finish_keeps (P := fun u => u.Ended x) fits (fun _ _ _ fits p => run_ended fits p) ended_stops
      ⟨ended.1, hushed_of_slots (fun _ => rfl) ended.2⟩
  · exact finish_does (P := fun _ => True) (Q := fun u => u.Ended x) left fits (fun _ _ _ _ _ => trivial)
      (fun u _ _ => silenceAxis_ended u x) (fun _ _ _ fits p => run_ended fits p) ended_stops trivial

/-- A closed list, or one that has been applied. -/
def State.Listed (s : State) (x : AxisId) : Prop := s.Applied x ∨ (s.list x).closed = true

theorem listed_of_lists {t : State} (lists : t.lists = s.lists) (raises : s.Raises t) (listed : s.Listed x) :
    t.Listed x :=
  listed.imp (applied_of_lists lists raises) (fun closed => by rw [list_of_lists lists]; exact closed)

theorem run_application_applied (free : Free x s) (listed : s.Listed x) : (s.run x (.application true)).Applied x := by
  rw [run_application]
  rcases listed with applied | closed
  · rw [applyClosed_open applied.1]; exact applied
  · rw [applyClosed_free s true closed free]; exact endApplication_applied _ x

/-- Every other task a fault leaves, but for the application, keeps the lists. -/
theorem run_lists {t : Task} (fits : t.FromFault later) (other : t ≠ .application true) : (s.run x t).lists = s.lists := by
  rcases fits with (rfl | ⟨h, o, kind, act, rfl⟩ | ⟨h, a, p, rev, rfl⟩) | ⟨-, rfl⟩
  · exact absurd rfl other
  · rfl
  · exact reportFault_lists s (.entryCheck h) a p rev
  · exact silenceAxis_lists s x

theorem run_raises {t : Task} (fits : t.FromFault later) : s.Raises (s.run x t) :=
  (run_fromFault (P := State.Aside s) (aside_listKept x true s) (fun u h => h.trans (silenceAxis_aside u x)) fits
    (.refl s)).raises

theorem run_listed {t : Task} (fits : t.FromFault later) (free : Free x s) (listed : s.Listed x) :
    (s.run x t).Listed x := by
  by_cases application : t = .application true
  · subst application; exact .inl (run_application_applied free listed)
  · exact listed_of_lists (run_lists fits application) (run_raises fits) listed

theorem run_applied {t : Task} (fits : t.FromFault later) (free : Free x s) (applied : s.Applied x) :
    (s.run x t).Applied x := by
  by_cases application : t = .application true
  · subst application; exact run_application_applied free (.inl applied)
  · exact applied_of_lists (run_lists fits application) (run_raises fits) applied

/-- Once the channel has ended what a fault has left, the closed list has been applied. -/
theorem finish_applied (fits : ∀ t ∈ (s.channel x).rest, t.FromFault later)
    (done : s.Applied x ∨ ((s.list x).closed = true ∧ Task.application true ∈ (s.channel x).rest)) :
    (s.finish x).Applied x := by
  rcases done with applied | ⟨closed, left⟩
  · exact finish_keeps (P := fun u => u.Applied x) fits (fun _ _ free fits p => run_applied fits free p)
      (fun _ _ p => p) applied
  · exact finish_does (P := fun u => u.Listed x) (Q := fun u => u.Applied x) left fits
      (fun _ _ free fits p => run_listed fits free p) (fun _ free p => run_application_applied free p)
      (fun _ _ free fits p => run_applied fits free p) (fun _ _ p => p) (.inr closed)

end

/-! ### The fault -/

section
variable {s : State} {x : AxisId}

/-- The state in which the claims of a fault begin: the axis record has been written. -/
def State.faultedBy (s : State) (x : AxisId) (cause : FaultCause) (stops : List StopPoint) : State :=
  ({ s with stops := stops } : State).setAxis x ((s.axis x).fault cause)

theorem faultedBy_axis (cause : FaultCause) (stops : List StopPoint) :
    (s.faultedBy x cause stops).axis x = (s.axis x).fault cause := State.setAxis_axis_self _ _ _

theorem faultedBy_aside (cause : FaultCause) (stops : List StopPoint) : State.Aside s (s.faultedBy x cause stops) :=
  aside_of_same rfl rfl rfl rfl

/-- What has become of a fault met in `s` when its claims have been taken, or left in the channel; `later` says whether its
silent end waits. -/
structure ClaimsTaken (s : State) (x : AxisId) (cause : FaultCause) (later : Bool) (t : State) : Prop where
  axes : State.AxesBut x (s.setAxis x ((s.axis x).fault cause)) t
  fits : ∀ u ∈ (t.channel x).rest, u.FromFault later
  told : t.latched &&& reasonAxisChanged = reasonAxisChanged
  reported : t.report.isSome = true
  safety : ∃ u, (u.axis x).faultAction = (s.axis x).faultAction ∧ State.Aside s u ∧ State.Aside (u.faultToSafeState x) t
  waits : later = true → (t.axis x).silentDue = true
  ended : later = false → t.Ended x ∨ Task.silentEnd ∈ (t.channel x).rest
  applied : (s.list x).closed = true →
    t.Applied x ∨ ((t.list x).closed = true ∧ Task.application true ∈ (t.channel x).rest)
  unlisted : (s.list x).closed = false → t.Unlisted x (s.list x)
    ∧ t.report = some (Report.taken s.report cause x (s.axis x).tracked (s.axis x).revolution)

theorem takeFault_claims (quiet : (s.channel x).rest = []) (cause : FaultCause) (order : FaultOrder) :
    ClaimsTaken s x cause order.silentLater (({ s with stops := order.stops } : State).takeFault x cause order) := by
  have turns := inTurn_turns order.claims
  have faulted : ((s.faultedBy x cause order.stops).axis x).state = .faulted := by rw [faultedBy_axis]; rfl
  have revolution : ((s.faultedBy x cause order.stops).axis x).revolution = (s.axis x).revolution := by
    rw [faultedBy_axis]; rfl
  have axes := afterClaims_axesBut (cause := cause) (tracked := (s.axis x).tracked) (later := order.silentLater)
    (cs := inTurn order.claims faultClaims) faulted
  obtain ⟨u, but, before, after⟩ := afterClaims_safety (cause := cause) (tracked := (s.axis x).tracked)
    (later := order.silentLater) faulted turns
  exact {
    axes := ⟨axes.own, axes.others⟩
    fits := afterClaims_leaves quiet
    told := afterClaims_raises turns (c := .attention) (fun u => latch_sets u reasonAxisChanged)
    reported := afterClaims_reported turns
    safety := ⟨u, by rw [but.own, faultedBy_axis]; rfl, (faultedBy_aside cause order.stops).trans before, after⟩
    waits := fun later => by
      have due := afterClaims_later (s := s.faultedBy x cause order.stops) (x := x) (cause := cause)
        (tracked := (s.axis x).tracked) turns
      rw [← later] at due
      exact due.trans later
    ended := fun now => by
      have done := afterClaims_ended (s := s.faultedBy x cause order.stops) (x := x) (cause := cause)
        (tracked := (s.axis x).tracked) turns
      rw [← now] at done
      exact done
    applied := fun closed => afterClaims_applied turns closed
    unlisted := fun opened => by
      have unlisted := afterClaims_unlisted (cause := cause) (tracked := (s.axis x).tracked)
        (later := order.silentLater) turns faulted quiet opened
      rw [revolution] at unlisted
      exact unlisted }

/-- The choice of stop points stands for the fault's own work alone. -/
theorem ClaimsTaken.stops {cause : FaultCause} {later : Bool} {t : State} (taken : ClaimsTaken s x cause later t)
    (l : List StopPoint) : ClaimsTaken s x cause later { t with stops := l } where
  axes := ⟨taken.axes.own, taken.axes.others⟩
  fits := taken.fits
  told := taken.told
  reported := taken.reported
  safety := by
    obtain ⟨u, action, before, after⟩ := taken.safety
    exact ⟨u, action, before, after.trans (aside_of_same rfl rfl rfl rfl)⟩
  waits := taken.waits
  ended now := (taken.ended now).imp_left (ended_stops t l)
  applied := taken.applied
  unlisted := taken.unlisted

theorem ClaimsTaken.faulted {cause : FaultCause} {later : Bool} {t : State} (taken : ClaimsTaken s x cause later t) :
    (t.axis x).state = .faulted := by
  rw [taken.axes.own, State.setAxis_axis_self]; rfl

/-- Once the channel has ended what is left of a fault, the fault has been taken (R55). -/
theorem ClaimsTaken.finished {cause : FaultCause} {later : Bool} {t : State} (taken : ClaimsTaken s x cause later t) :
    FaultTaken s (t.finish x) x cause later := by
  have aside := finish_aside taken.fits
  have axes := taken.axes.trans (axesBut_of_worked taken.faulted (finish_worked x t))
  have due : ((t.finish x).axis x).silentDue = later := by
    cases later with
    | true => exact finish_due taken.fits (taken.waits rfl)
    | false => exact (finish_ended taken.fits (taken.ended rfl)).1
  have open_ : (s.list x).closed = false → t.finish x = t := fun opened => finish_quiet (taken.unlisted opened).1.1
  have applied : (s.list x).closed = true → (t.finish x).Applied x := fun closed =>
    finish_applied taken.fits (taken.applied closed)
  obtain ⟨u, action, before, after⟩ := taken.safety
  have safety := after.trans aside
  refine ⟨?_, fun y ne => ?_, aside.raises _ taken.told, ?_, fun closed => ⟨(applied closed).2.1, (applied closed).2.2⟩,
    aside.reported taken.reported, fun opened none => ?_, fun opened p some_ => ?_, fun safe => ?_,
    fun passive releasing => ?_, fun passive steady => ?_, fun now => ?_⟩
  · rw [axes.own, due, State.setAxis_axis_self]; rfl
  · rw [axes.others y ne, State.setAxis_axis, if_neg (Ne.symm ne)]
  · cases closed : (s.list x).closed with
    | true => exact (applied closed).1
    | false => rw [open_ closed, (taken.unlisted closed).1.2]; exact closed
  · rw [open_ opened, (taken.unlisted opened).2, none]; rfl
  · rw [open_ opened, (taken.unlisted opened).2, some_]; rfl
  · have entered : u.faultToSafeState x = u.enterSafe := by unfold State.faultToSafeState; rw [action, safe]
    rw [entered] at safety
    by_cases already : u.condition = .safe
    · rw [enterSafe_of_safe already] at safety
      refine ⟨safety.condition.trans already, fun _ o => ?_, fun outside => absurd (before.condition ▸ already) outside⟩
      rw [(safety.held o).1, (before.held o).1]
    · obtain ⟨condition, told, holds⟩ := enterSafe_of_ne already
      refine ⟨safety.condition.trans condition, fun was => absurd (before.condition.trans was) already,
        fun _ => ⟨safety.raises _ told, fun o => (safety.held o).1.trans (holds o)⟩⟩
  · have freed : u.faultToSafeState x = u.releaseAxis x := by unfold State.faultToSafeState; rw [action, passive]
    rw [freed] at safety
    have released := (releaseAxis_of_releasing (before.condition.trans releasing) x).of_aside before safety
    exact ⟨released.holds, released.ends, released.stays, released.told⟩
  · have freed : u.faultToSafeState x = u := by
      unfold State.faultToSafeState
      rw [action, passive]
      simp only [State.releaseAxis]
      rw [if_neg (by rw [before.condition]; exact steady)]
    rw [freed] at safety
    have both := before.trans safety
    exact ⟨both.condition, fun o => (both.held o).1⟩
  · subst now
    exact (finish_ended taken.fits (taken.ended rfl)).2

/-- The fault of a RUNNING axis whose channel has no work in progress. -/
theorem axisFault_claims (quiet : s.busy x = false) (running : (s.axis x).state = .running) (cause : FaultCause)
    (order : FaultOrder) : ClaimsTaken s x cause order.silentLater (s.axisFault x cause order) := by
  have empty : (s.channel x).rest = [] := by simpa [State.busy] using quiet
  rw [State.axisFault, if_pos running, finish_quiet empty]
  exact (takeFault_claims empty cause order).stops s.stops

/-- An axis fault of a RUNNING axis whose channel has no work in progress leaves the part as R55 says once the channel has
ended what the fault asks of it: whatever the order of its claims, and wherever its work stops. -/
theorem axisFault_taken (quiet : s.busy x = false) (running : (s.axis x).state = .running) (cause : FaultCause)
    (order : FaultOrder) : FaultTaken s ((s.axisFault x cause order).finish x) x cause order.silentLater :=
  (axisFault_claims quiet running cause order).finished

theorem axisFault_stopped (quiet : s.busy x = false) (running : (s.axis x).state = .running) (cause : FaultCause)
    (order : FaultOrder) : ((s.axisFault x cause order).axis x).state ≠ .running := by
  rw [(axisFault_claims quiet running cause order).faulted]
  exact nofun

end

end Sys2Proof.Machine
end

section
/-! SUPPORT. What the lines of an axis bring about: counts, faults and levels (R45 to R48). -/

namespace Sys2Proof.Machine

section
variable {s : State} {x : AxisId}

theorem endApplying_of_not (idle : s.applying x = false) : s.endApplying x = s := by
  unfold State.endApplying; rw [if_neg (by simp [idle])]

theorem applying_of_quiet (quiet : s.busy x = false) : s.applying x = false := by
  have empty : (s.channel x).rest = [] := by simpa [State.busy] using quiet
  simp [State.applying, empty]

theorem recognizes_of {r : Axis} {samples : Nat} (configured : r.state ≠ .off) (long : r.filter.toNat + 1 ≤ samples) :
    r.recognizes samples = true := by
  simp [Axis.recognizes, configured, long]

theorem countsEncoder_of {r : Axis} (running : r.state = .running) (encoder : r.source = .encoder) :
    r.countsEncoder = true := by
  simp [Axis.countsEncoder, running, encoder]

/-- One place along the sequence 00, 10, 11, 01 is +1 and one back is −1; direction invert swaps them (R46). -/
theorem decodeQuadrature_forwardPair (i : Fin 4) (forward invert z : Bool) :
    decodeQuadrature invert ⟨(forwardPair i).1, (forwardPair i).2, z⟩
      (forwardPair (if forward then i + 1 else i - 1)).1 (forwardPair (if forward then i + 1 else i - 1)).2
      = .count (if forward == invert then -1 else 1) := by
  revert i forward invert z; decide

theorem decodeQuadrature_same (invert : Bool) (l : Lines) : decodeQuadrature invert l l.a l.b = .unchanged := by
  rcases l with ⟨a, b, z⟩
  revert invert a b z; decide

/-- A change of both lines has no direction (R47). -/
theorem decodeQuadrature_both (invert : Bool) (l : Lines) : decodeQuadrature invert l (!l.a) (!l.b) = .both := by
  rcases l with ⟨a, b, z⟩
  revert invert a b z; decide

theorem setLines_axis (s : State) (x : AxisId) (l : Lines) : (s.setLines x l).axis x = { s.axis x with lines := l } :=
  State.setAxis_axis_self s x _

theorem linesChange_count {l : Lines} {n : Int} (order : FaultOrder) (counts : (s.axis x).countsEncoder = true)
    (decoded : decodeQuadrature (s.axis x).invert (s.axis x).lines l.a l.b = .count n) :
    s.linesChange x l order = (s.setLines x l).addCounts x n order := by
  simp only [State.linesChange, counts, decoded, if_true]

theorem linesChange_both {l : Lines} (order : FaultOrder) (counts : (s.axis x).countsEncoder = true)
    (decoded : decodeQuadrature (s.axis x).invert (s.axis x).lines l.a l.b = .both) :
    s.linesChange x l order = (s.setLines x l).axisFault x .illegalTransition order := by
  simp only [State.linesChange, counts, decoded, if_true]

/-- A change that is no count and no fault sets the recognized levels alone (R48). -/
theorem linesChange_plain {l : Lines} (order : FaultOrder) (plain : (s.axis x).countsEncoder = true →
    decodeQuadrature (s.axis x).invert (s.axis x).lines l.a l.b = .unchanged) :
    s.linesChange x l order = s.setLines x l := by
  cases counts : (s.axis x).countsEncoder with
  | false => simp [State.linesChange, counts]
  | true => simp [State.linesChange, counts, plain counts]

theorem addCounts_within {n : Int} (order : FaultOrder) (within : ((s.axis x).backlog + n).natAbs ≤ 1023) :
    s.addCounts x n order = s.setAxis x { s.axis x with backlog := (s.axis x).backlog + n } := if_pos within

theorem addCounts_over {n : Int} (order : FaultOrder) (past : 1023 < ((s.axis x).backlog + n).natAbs) :
    s.addCounts x n order = s.axisFault x .countOverrun order := if_neg (Nat.not_le.2 past)

/-- A recognized change of the pair is judged on the lines as they are (R45, R46). -/
theorem execEncoderCount_of_recognized {a b : Bool} {samples : Nat} (order : FaultOrder) (idle : s.applying x = false)
    (recognized : (s.axis x).recognizes samples = true) : execEncoderCount x a b samples order s
      = .next (s.linesChange x ⟨a, b, (s.axis x).lines.z⟩ order) := by
  unfold execEncoderCount
  rw [if_pos recognized, endApplying_of_not idle]

theorem execRecognizedLineChange_of_recognized {l : Lines} {samples : Nat} (order : FaultOrder)
    (idle : s.applying x = false) (recognized : (s.axis x).recognizes samples = true)
    (plain : (s.axis x).plainChange l = true) : execRecognizedLineChange x l samples order s
      = .next (s.linesChange x l order) := by
  unfold execRecognizedLineChange
  rw [if_pos ⟨recognized, plain⟩, endApplying_of_not idle]

theorem setAxis_busy (y : Axis) : (s.setAxis x y).busy x = s.busy x := rfl

/-- A change of both lines of a RUNNING ENCODER axis faults it (R47). -/
theorem linesChange_illegal {l : Lines} (order : FaultOrder) (quiet : s.busy x = false)
    (running : (s.axis x).state = .running) (encoder : (s.axis x).source = .encoder) (a : l.a = !(s.axis x).lines.a)
    (b : l.b = !(s.axis x).lines.b) :
    FaultTaken (s.setLines x l) ((s.linesChange x l order).finish x) x .illegalTransition order.silentLater := by
  rw [linesChange_both order (countsEncoder_of running encoder) (by rw [a, b]; exact decodeQuadrature_both _ _)]
  exact axisFault_taken (s := s.setLines x l) quiet (by rw [setLines_axis]; exact running) _ order

/-- A count that would bring the backlog to 1024 faults the axis (R50). -/
theorem addCounts_fault {n : Int} (order : FaultOrder) (quiet : s.busy x = false)
    (running : (s.axis x).state = .running) (past : 1023 < ((s.axis x).backlog + n).natAbs) :
    FaultTaken s ((s.addCounts x n order).finish x) x .countOverrun order.silentLater := by
  rw [addCounts_over order past]
  exact axisFault_taken quiet running _ order

end

end Sys2Proof.Machine

open Sys2Proof Sys2Proof.Machine

/-- Settles O18: a recognized change of the pair is decoded by its places in the sequence, and counted. -/
theorem encoderChangesAreCounted : Obligations.EncoderChangesAreCounted := by
  unfold Obligations.EncoderChangesAreCounted
  intro s x i forward samples order r pair d idle running encoder lines
  have decoded : decodeQuadrature r.invert r.lines pair.1 pair.2 = .count d := by
    have place := decodeQuadrature_forwardPair i forward r.invert r.lines.z
    rw [← lines] at place
    exact place
  refine ⟨fun long within => ?_, fun short => ?_⟩
  · show execEncoderCount x pair.1 pair.2 samples order s = _
    rw [execEncoderCount_of_recognized order idle (recognizes_of (by simp [r, running]) long),
      linesChange_count order (countsEncoder_of running encoder) decoded,
      addCounts_within order (by rw [setLines_axis]; exact within), setLines_axis, State.setLines, State.setAxis_setAxis]
  · show execEncoderCount x pair.1 pair.2 samples order s = _
    unfold execEncoderCount
    rw [if_neg]
    simpa [Axis.recognizes, Nat.not_le, Nat.lt_succ_iff] using fun _ => short

/-- Settles O19: a change of both lines has no direction, and a count past the limit overruns; either is an axis fault of
a RUNNING axis. -/
theorem encoderFaultsTakeTheAxisOut : Obligations.EncoderFaultsTakeTheAxisOut := by
  unfold Obligations.EncoderFaultsTakeTheAxisOut
  intro s x samples order r quiet running encoder long
  have recognized : r.recognizes samples = true := recognizes_of (by simp [r, running]) long
  have changed (a b : Bool) := execEncoderCount_of_recognized (a := a) (b := b) order (applying_of_quiet quiet) recognized
  refine ⟨⟨_, changed _ _, linesChange_illegal order quiet running encoder rfl rfl⟩, ?_⟩
  intro i forward pair d lines past
  refine ⟨_, changed _ _, ?_⟩
  have decoded : decodeQuadrature r.invert r.lines pair.1 pair.2 = .count d := by
    have place := decodeQuadrature_forwardPair i forward r.invert r.lines.z
    rw [← lines] at place
    exact place
  rw [linesChange_count order (countsEncoder_of running encoder) decoded]
  exact addCounts_fault (s := s.setLines x ⟨pair.1, pair.2, r.lines.z⟩) order quiet
    (by rw [setLines_axis]; exact running) (by rw [setLines_axis]; exact past)

/-- Settles O22: a plain change sets the levels alone, and a change of both lines of a RUNNING ENCODER axis is an axis
fault. -/
theorem plainLineChangesSetTheLevels : Obligations.PlainLineChangesSetTheLevels := by
  unfold Obligations.PlainLineChangesSetTheLevels
  intro s a l samples order x idle configured long
  have recognized : x.recognizes samples = true := recognizes_of configured long
  refine ⟨fun plain => ?_, fun quiet running encoder both both' index => ?_⟩
  · have unchanged : x.countsEncoder = true → decodeQuadrature x.invert x.lines l.a l.b = .unchanged
        ∧ (l.z = false ∨ x.indexPoint = none) := fun counts => by
      obtain ⟨running, encoder⟩ : x.state = .running ∧ x.source = .encoder := by
        simpa [Axis.countsEncoder] using counts
      obtain ⟨sameA, sameB, index⟩ := (plain.resolve_left (not_not.2 running)).resolve_left (not_not.2 encoder)
      exact ⟨by rw [sameA, sameB]; exact decodeQuadrature_same _ _, index⟩
    have plainly : x.plainChange l = true := by
      cases counts : x.countsEncoder with
      | false => simp [Axis.plainChange, counts]
      | true =>
        obtain ⟨decoded, low | none⟩ := unchanged counts
        · simp [Axis.plainChange, decoded, low]
        · simp [Axis.plainChange, decoded, none]
    show execRecognizedLineChange a l samples order s = _
    rw [execRecognizedLineChange_of_recognized order idle recognized plainly,
      linesChange_plain order (fun counts => (unchanged counts).1)]
    rfl
  · have decoded : decodeQuadrature x.invert x.lines l.a l.b = .both := by
      rw [both, both']; exact decodeQuadrature_both _ _
    have plainly : x.plainChange l = true := by
      rcases index with low | none
      · simp [Axis.plainChange, decoded, low]
      · simp [Axis.plainChange, decoded, none]
    exact ⟨_, execRecognizedLineChange_of_recognized order idle recognized plainly,
      linesChange_illegal order quiet running encoder both both'⟩

end

section
/-! SUPPORT. Rate intervals: the counts of one axis, added one at a time, and the turns of the axes (R49). -/

namespace Sys2Proof.Machine

/-! ### The counts of one interval -/

section
variable {s : State} {a : AxisId}

theorem addOneByOne_succ (unit : Int) (order : FaultOrder) (n : Nat) (running : (s.axis a).state = .running) :
    State.addOneByOne a unit order (n + 1) s = State.addOneByOne a unit order n (s.addCounts a unit order) := by
  rw [State.addOneByOne, if_pos running]

theorem addOneByOne_stopped (unit : Int) (order : FaultOrder) (n : Nat) (stopped : (s.axis a).state ≠ .running) :
    State.addOneByOne a unit order n s = s := by
  cases n with
  | zero => rfl
  | succ n => rw [State.addOneByOne, if_neg stopped]

/-- Counts of one sign within the limit are added in full (R49, R50). -/
theorem addOneByOne_within {unit : Int} (order : FaultOrder) (n : Nat) (one : unit = 1 ∨ unit = -1)
    (running : (s.axis a).state = .running) (start : (s.axis a).backlog.natAbs ≤ 1023)
    (within : ((s.axis a).backlog + n * unit).natAbs ≤ 1023) :
    State.addOneByOne a unit order n s = s.setAxis a { s.axis a with backlog := (s.axis a).backlog + n * unit } := by
  induction n generalizing s with
  | zero =>
    have same : (s.axis a).backlog + (0 : Nat) * unit = (s.axis a).backlog := by simp
    rw [same]
    exact (State.setAxis_self s a).symm
  | succ n ih =>
    have total : (s.axis a).backlog + unit + n * unit = (s.axis a).backlog + (n + 1 : Nat) * unit := by
      push_cast; ring
    have first : ((s.axis a).backlog + unit).natAbs ≤ 1023 := by
      rcases one with rfl | rfl <;> omega
    rw [addOneByOne_succ unit order n running, addCounts_within order first, ih]
    · rw [State.setAxis_axis_self, State.setAxis_setAxis, total]
    · rw [State.setAxis_axis_self]; exact running
    · rw [State.setAxis_axis_self]; exact first
    · rw [State.setAxis_axis_self, total]; exact within

/-- Counts of one sign that would pass the limit are added up to it, and the next faults the axis (R49, R50). -/
theorem addOneByOne_past {unit : Int} (order : FaultOrder) (n : Nat) (one : unit = 1 ∨ unit = -1)
    (running : (s.axis a).state = .running) (start : (s.axis a).backlog.natAbs ≤ 1023)
    (past : 1023 < ((s.axis a).backlog + n * unit).natAbs) (quiet : s.busy a = false) :
    State.addOneByOne a unit order n s
      = (s.setAxis a { s.axis a with backlog := 1023 * unit }).axisFault a .countOverrun order := by
  induction n generalizing s with
  | zero =>
    simp only [Nat.cast_zero, zero_mul, add_zero] at past
    omega
  | succ n ih =>
    rw [addOneByOne_succ unit order n running]
    by_cases first : ((s.axis a).backlog + unit).natAbs ≤ 1023
    · have total : (s.axis a).backlog + unit + n * unit = (s.axis a).backlog + (n + 1 : Nat) * unit := by
        push_cast; ring
      rw [addCounts_within order first, ih]
      · rw [State.setAxis_axis_self, State.setAxis_setAxis]
      · rw [State.setAxis_axis_self]; exact running
      · rw [State.setAxis_axis_self]; exact first
      · rw [State.setAxis_axis_self, total]; exact past
      · exact quiet
    · have full : (s.axis a).backlog = 1023 * unit := by
        rcases one with rfl | rfl <;> omega
      have same : s.setAxis a { s.axis a with backlog := 1023 * unit } = s := by
        rw [← full]; exact State.setAxis_self s a
      rw [same, addCounts_over order (Nat.lt_of_not_le first)]
      exact addOneByOne_stopped unit order n (axisFault_stopped quiet running _ order)

/-- The whole counts of a sum, as so many counts of one sign (R49). -/
theorem natAbs_tdiv_mul (sum : Int) :
    ((sum.tdiv 10000).natAbs : Int) * (if 0 ≤ sum then 1 else -1) = sum.tdiv 10000 := by
  split
  · next pos =>
    have : 0 ≤ sum.tdiv 10000 := Int.tdiv_nonneg pos (by decide)
    omega
  · next neg =>
    have mirrored : 0 ≤ (-sum).tdiv 10000 := Int.tdiv_nonneg (by omega) (by decide)
    rw [Int.neg_tdiv] at mirrored
    omega

/-- The record of an axis after its turn of a rate interval in which it does not overrun (R49). -/
def Axis.rated (x : Axis) : Axis :=
  if x.state = .running ∧ x.source = .rate then { x with
    backlog := x.backlog + (x.remainder + x.rate).tdiv 10000
    remainder := (x.remainder + x.rate).tmod 10000 }
  else x

theorem rateTurn_of_other (order : FaultOrder) (idle : s.applying a = false)
    (other : ¬ ((s.axis a).state = .running ∧ (s.axis a).source = .rate)) : s.rateTurn (a, order) = s := by
  simp only [State.rateTurn, endApplying_of_not idle]
  rw [if_neg other]

theorem rateTurn_of_rate (order : FaultOrder) (idle : s.applying a = false)
    (rate : (s.axis a).state = .running ∧ (s.axis a).source = .rate) : s.rateTurn (a, order)
      = State.addOneByOne a (if 0 ≤ (s.axis a).remainder + (s.axis a).rate then 1 else -1) order
          (((s.axis a).remainder + (s.axis a).rate).tdiv 10000).natAbs
          (s.setAxis a { s.axis a with remainder := ((s.axis a).remainder + (s.axis a).rate).tmod 10000 }) := by
  simp only [State.rateTurn, endApplying_of_not idle]
  rw [if_pos rate]

theorem rateTurn_within (order : FaultOrder) (idle : s.applying a = false)
    (fits : (s.axis a).state = .running → (s.axis a).source = .rate → (s.axis a).backlog.natAbs ≤ 1023
      ∧ ((s.axis a).backlog + ((s.axis a).remainder + (s.axis a).rate).tdiv 10000).natAbs ≤ 1023) :
    s.rateTurn (a, order) = s.setAxis a (s.axis a).rated := by
  by_cases rate : (s.axis a).state = .running ∧ (s.axis a).source = .rate
  · obtain ⟨start, within⟩ := fits rate.1 rate.2
    have sum := natAbs_tdiv_mul ((s.axis a).remainder + (s.axis a).rate)
    rw [rateTurn_of_rate order idle rate, addOneByOne_within]
    · rw [State.setAxis_axis_self, State.setAxis_setAxis, sum, Axis.rated, if_pos rate]
    · split
      · exact .inl rfl
      · exact .inr rfl
    · rw [State.setAxis_axis_self]; exact rate.1
    · rw [State.setAxis_axis_self]; exact start
    · rw [State.setAxis_axis_self, sum]; exact within
  · rw [rateTurn_of_other order idle rate, Axis.rated, if_neg rate, State.setAxis_self]

end

/-! ### The turns of the axes -/

theorem rateTurns_axes (turns : List (AxisId × FaultOrder)) :
    (rateTurns turns).map Prod.fst = inTurn (turns.map Prod.fst) axisIds := by
  unfold rateTurns
  rw [List.map_map]
  exact List.map_id _

theorem nodup_rateTurns (turns : List (AxisId × FaultOrder)) : ((rateTurns turns).map Prod.fst).Nodup := by
  rw [rateTurns_axes]; exact nodup_inTurn _ (by decide)

/-- The order in which the claims of a fault of an axis are taken in a rate interval. -/
def rateOrder (turns : List (AxisId × FaultOrder)) (a : AxisId) : FaultOrder :=
  ((turns.find? (fun t => t.1 == a)).map Prod.snd).getD FaultOrder.manual

theorem mem_rateTurns (turns : List (AxisId × FaultOrder)) (a : AxisId) : (a, rateOrder turns a) ∈ rateTurns turns :=
  List.mem_map.2 ⟨a, mem_inTurn _ (by simp [axisIds]), rfl⟩

theorem rateTurns_eq (turns : List (AxisId × FaultOrder)) :
    rateTurns turns = (inTurn (turns.map Prod.fst) axisIds).map (fun a => (a, rateOrder turns a)) := rfl

/-- The state `s` with the axes `done` having taken their turn of a rate interval. -/
def State.ratedIn (s : State) (done : List AxisId) : State :=
  { s with axes := Vector.ofFn (fun b => if b ∈ done then (s.axis b).rated else s.axis b) }

theorem ratedIn_axis (s : State) (done : List AxisId) (b : AxisId) :
    (s.ratedIn done).axis b = if b ∈ done then (s.axis b).rated else s.axis b := by
  simp [State.ratedIn, State.axis]

theorem ratedIn_setAxis (s : State) (done : List AxisId) (a : AxisId) :
    (s.ratedIn done).setAxis a (s.axis a).rated = s.ratedIn (a :: done) := by
  have axes : ((s.ratedIn done).setAxis a (s.axis a).rated).axes = (s.ratedIn (a :: done)).axes := by
    refine Vector.ext fun i below => ?_
    have at_ := State.setAxis_axis (s.ratedIn done) a ⟨i, below⟩ (s.axis a).rated
    rw [ratedIn_axis] at at_
    have there := ratedIn_axis s (a :: done) ⟨i, below⟩
    refine at_.trans (Eq.trans ?_ there.symm)
    by_cases same : a = ⟨i, below⟩
    · subst same; simp
    · simp [same, Ne.symm same]
  simp only [State.ratedIn, State.setAxis] at axes ⊢
  rw [axes]

/-- Turns of distinct axes that do not overrun. -/
theorem foldl_rateTurn (s : State) (idle : ∀ a, s.applying a = false)
    (fits : ∀ a, (s.axis a).state = .running → (s.axis a).source = .rate → (s.axis a).backlog.natAbs ≤ 1023
      ∧ ((s.axis a).backlog + ((s.axis a).remainder + (s.axis a).rate).tdiv 10000).natAbs ≤ 1023) :
    ∀ (turns : List (AxisId × FaultOrder)) (done : List AxisId), (turns.map Prod.fst).Nodup →
      (∀ turn ∈ turns, turn.1 ∉ done) →
      turns.foldl State.rateTurn (s.ratedIn done) = s.ratedIn ((turns.map Prod.fst).reverse ++ done) := by
  intro turns
  induction turns with
  | nil => exact fun _ _ _ => rfl
  | cons turn turns ih =>
    intro done nodup fresh
    obtain ⟨a, order⟩ := turn
    obtain ⟨unnamed, nodup⟩ := List.nodup_cons.1 nodup
    have record : (s.ratedIn done).axis a = s.axis a := by
      rw [ratedIn_axis, if_neg (fresh (a, order) (by simp))]
    have turned : (s.ratedIn done).rateTurn (a, order) = s.ratedIn (a :: done) := by
      rw [rateTurn_within (s := s.ratedIn done) order (idle a) (by rw [record]; exact fits a), record, ratedIn_setAxis]
    rw [List.foldl_cons, turned, ih (a :: done) nodup]
    · simp
    · intro turn m named
      rcases List.mem_cons.1 named with same | old
      · exact unnamed (List.mem_map.2 ⟨turn, m, same⟩)
      · exact fresh turn (List.mem_cons_of_mem _ m) old

theorem ratedIn_all (s : State) {done : List AxisId} (all : ∀ b, b ∈ done) :
    s.ratedIn done = { s with axes := s.axes.map Axis.rated } := by
  have axes : (s.ratedIn done).axes = s.axes.map Axis.rated := by
    refine Vector.ext fun i below => ?_
    have there := ratedIn_axis s done ⟨i, below⟩
    rw [if_pos (all _)] at there
    refine there.trans ?_
    simp [State.axis]
  simp only [State.ratedIn] at axes ⊢
  rw [axes]

theorem ratedIn_nil (s : State) : s.ratedIn [] = s := by
  have axes : (s.ratedIn []).axes = s.axes := by
    refine Vector.ext fun i below => ?_
    have there := ratedIn_axis s [] ⟨i, below⟩
    rwa [if_neg (by simp)] at there
  simp only [State.ratedIn] at axes ⊢
  rw [axes]

/-! ### The other channels at a fault -/

theorem defer_applying (s : State) {a b : AxisId} (other : b ≠ a) (t : Task) :
    (s.defer a t).applying b = s.applying b := by
  simp only [State.applying, State.defer, State.setChannel_channel, if_neg (Ne.symm other)]

theorem faultClaim_applying {s : State} {x b : AxisId} {cause : FaultCause} {tracked : Nat} {later : Bool}
    (c : FaultClaim) (other : b ≠ x) (idle : s.applying b = false) :
    (State.faultClaim x cause tracked later s c).applying b = false := by
  cases c with
  | silentEnd =>
    cases later with
    | true => exact idle
    | false =>
      rw [faultClaim_silentEnd_now]; split
      · rw [defer_applying s other]; exact idle
      · rw [State.applying, silenceAxis_channels]; exact idle
  | applyList =>
    rw [faultClaim_applyList]; split
    · rw [defer_applying s other]; exact idle
    · exact (applying_listKept x b other).applyClosed idle
  | report => rw [State.faultClaim, State.applying, reportFault_channel]; exact idle
  | attention => exact idle
  | safeState => rw [State.faultClaim, State.applying, channel_faultToSafeState]; exact idle

theorem axisFault_applying {s : State} {x b : AxisId} (cause : FaultCause) (order : FaultOrder) (other : b ≠ x)
    (quiet : s.busy x = false) (idle : s.applying b = false) : (s.axisFault x cause order).applying b = false := by
  unfold State.axisFault
  split
  · rw [finish_quiet (by simpa [State.busy] using quiet)]
    exact Kept.foldl (P := fun u => u.applying b = false) (fun u c p => faultClaim_applying c other p) _
      (s := s.faultedBy x cause order.stops) idle
  · exact idle

end Sys2Proof.Machine

open Sys2Proof Sys2Proof.Machine

/-- Settles O21: every axis takes one turn, which adds its counts one at a time; of an axis that overruns the count after
1023 is an axis fault. -/
theorem rateIntervalAddsWholeCounts : Obligations.RateIntervalAddsWholeCounts := by
  unfold Obligations.RateIntervalAddsWholeCounts
  intro s turns idle
  refine ⟨fun fits => ?_, ?_⟩
  · have taken := foldl_rateTurn s idle fits (rateTurns turns) [] (nodup_rateTurns turns) (by simp)
    rw [ratedIn_nil, ratedIn_all s (fun b => by
      have named : b ∈ (rateTurns turns).map Prod.fst := List.mem_map.2 ⟨_, mem_rateTurns turns b, rfl⟩
      simpa using named)] at taken
    exact congrArg Host.Outcome.next taken
  · intro a only x n quiet start past
    have rate : x.state = .running ∧ x.source = .rate := (only a).2 rfl
    let unit : Int := if 0 ≤ x.remainder + x.rate then 1 else -1
    have one : unit = 1 ∨ unit = -1 := by
      simp only [unit]; split
      · exact .inl rfl
      · exact .inr rfl
    have sum : (n.natAbs : Int) * unit = n := natAbs_tdiv_mul (x.remainder + x.rate)
    have sign : 1023 * unit = if 0 < n then 1023 else -1023 := by
      have positive : 0 < n ↔ unit = 1 := by
        rcases one with pos | neg
        · rw [pos] at sum ⊢; omega
        · rw [neg] at sum ⊢; omega
      rcases one with pos | neg
      · rw [if_pos (positive.2 pos), pos]; rfl
      · rw [if_neg (fun p => by rw [positive.1 p] at neg; cases neg), neg]; rfl
    let written := s.setAxis a { x with remainder := (x.remainder + x.rate).tmod 10000 }
    let full := s.setAxis a { x with
      backlog := if 0 < n then 1023 else -1023, remainder := (x.remainder + x.rate).tmod 10000 }
    have turn : s.rateTurn (a, rateOrder turns a) = full.axisFault a .countOverrun (rateOrder turns a) := by
      rw [rateTurn_of_rate _ (idle a) rate,
        addOneByOne_past (s := written) _ _ one (by rw [State.setAxis_axis_self]; exact rate.1)
          (by rw [State.setAxis_axis_self]; exact start)
          (by rw [State.setAxis_axis_self]; exact lt_of_lt_of_eq past (congrArg Int.natAbs (by rw [← sum]))) quiet,
        State.setAxis_axis_self, State.setAxis_setAxis, sign]
    have claims := axisFault_claims (s := full) (x := a) quiet (by rw [State.setAxis_axis_self]; exact rate.1)
      .countOverrun (rateOrder turns a)
    have other {b : AxisId} (ne : b ≠ a) : ¬ ((s.axis b).state = .running ∧ (s.axis b).source = .rate) :=
      fun rate => ne ((only b).1 rate)
    have taken : (rateTurns turns).foldl State.rateTurn s = full.axisFault a .countOverrun (rateOrder turns a) := by
      rw [rateTurns_eq, List.foldl_map]
      refine foldl_once (c := a) (pre := fun t => t = s)
        (post := fun t => t = full.axisFault a .countOverrun (rateOrder turns a)) (fun t b ne same => ?_)
        (fun t same => by rw [same]; exact turn) (fun t b ne same => ?_) (nodup_inTurn _ (by decide))
        (mem_inTurn _ (by simp [axisIds])) rfl
      · rw [same]; exact rateTurn_of_other _ (idle b) (other ne)
      · rw [same]
        refine rateTurn_of_other _ (axisFault_applying _ _ ne quiet (idle b)) ?_
        have record : (full.axisFault a .countOverrun (rateOrder turns a)).axis b = s.axis b := by
          rw [claims.axes.others b ne, State.setAxis_axis, if_neg (Ne.symm ne), State.setAxis_axis, if_neg (Ne.symm ne)]
        rw [record]; exact other ne
    have later : (rateOrder turns a).silentLater
        = ((turns.find? (fun turn => turn.1 == a)).map (fun turn => turn.2.silentLater)).getD false := by
      unfold rateOrder
      cases turns.find? (fun turn => turn.1 == a) <;> rfl
    refine ⟨_, rfl, ?_⟩
    rw [taken, ← later]
    exact claims.finished

end

section
/-! SUPPORT. Work on entries that stops is the work without a stop, once its channel has ended it (`takeEntries_finish`, R57),
and what a jump makes of the windows of its axis (R76). -/

namespace Sys2Proof.Machine

/-! ### What the stop points ahead do not bear on -/

/-- The state with other stop points ahead. -/
def State.ahead (s : State) (l : List StopPoint) : State := { s with stops := l }

@[simp] theorem ahead_axis (s : State) (l : List StopPoint) (a : AxisId) : (s.ahead l).axis a = s.axis a := rfl
@[simp] theorem ahead_slot (s : State) (l : List StopPoint) (h : Nat) : (s.ahead l).slot h = s.slot h := rfl
@[simp] theorem ahead_latched (s : State) (l : List StopPoint) : (s.ahead l).latched = s.latched := rfl
@[simp] theorem ahead_ahead (s : State) (l m : List StopPoint) : (s.ahead l).ahead m = s.ahead m := rfl
@[simp] theorem ahead_inWindow (s : State) (l : List StopPoint) : (s.ahead l).inWindow = s.inWindow := rfl

section
variable (s : State) (l : List StopPoint)

theorem countUpFor_ahead (e : Entry) : (s.ahead l).countUpFor e = (s.countUpFor e).ahead l := by
  unfold State.countUpFor; cases e.output <;> rfl

theorem countDownFor_ahead (e : Entry) : (s.ahead l).countDownFor e = (s.countDownFor e).ahead l := by
  unfold State.countDownFor; cases e.output <;> rfl

theorem endActivity_ahead (h : Nat) : (s.ahead l).endActivity h = (s.endActivity h).ahead l := by
  unfold State.endActivity
  rw [show (s.ahead l).slot h = s.slot h from rfl]
  split
  · next e ok r _ =>
    split
    · rfl
    · exact countDownFor_ahead (s.setSlot h (.live e ok { r with activity := .idle })) l e
  · rfl

theorem hand_ahead (h : Nat) : (s.ahead l).hand h = (s.hand h).ahead l := by
  unfold State.hand
  rw [show (s.ahead l).slot h = s.slot h from rfl]
  split <;> rfl

theorem reportFault_ahead (cause : FaultCause) (a : AxisId) (p : Nat) (rev : BitVec 16) :
    (s.ahead l).reportFault cause a p rev = (s.reportFault cause a p rev).ahead l := by
  unfold State.reportFault
  rw [show (s.ahead l).report = s.report from rfl]
  split <;> rfl

theorem runClaim_ahead (t : Task) : (s.ahead l).runClaim t = (s.runClaim t).ahead l := by
  cases t with
  | hand h => exact hand_ahead s l h
  | fenceReport h a p rev => exact reportFault_ahead s l _ a p rev
  | _ => rfl

theorem invertOnce_ahead (a : AxisId) (o : OutId) : (s.ahead l).invertOnce a o = (s.invertOnce a o).ahead l := by
  unfold State.invertOnce
  simp only
  rw [show (s.ahead l).channel a = s.channel a from rfl]
  split <;> rfl

theorem takeHanding_ahead (h : Nat) (a : AxisId) :
    State.takeHanding h (s.ahead l) a = (State.takeHanding h s a).ahead l := by
  unfold State.takeHanding
  rw [show (s.ahead l).channel a = s.channel a from rfl]
  split
  · next k rest inverted _ =>
    split
    · exact hand_ahead (s.setChannel a ⟨rest, inverted⟩) l h
    · rfl
  · rfl

theorem takeHandings_ahead (h : Nat) : (s.ahead l).takeHandings h = (s.takeHandings h).ahead l := by
  have turns : ∀ (xs : List AxisId) (t : State),
      xs.foldl (State.takeHanding h) (t.ahead l) = (xs.foldl (State.takeHanding h) t).ahead l := by
    intro xs
    induction xs with
    | nil => exact fun _ => rfl
    | cons a xs ih => exact fun t => by rw [List.foldl_cons, List.foldl_cons, takeHanding_ahead, ih]
  exact turns axisIds s

theorem fenceSlot_ahead (h : Nat) (e : Entry) (log : FireLog) :
    (s.ahead l).fenceSlot h e log = (s.fenceSlot h e log).ahead l := by
  unfold State.fenceSlot
  rw [show (s.ahead l).slot h = s.slot h from rfl, takeHandings_ahead]
  generalize s.takeHandings h = t
  simp only
  split <;> rfl

theorem beginFence_ahead (h : Nat) :
    (s.ahead l).beginFence h = ((s.beginFence h).1.ahead l, (s.beginFence h).2) := by
  unfold State.beginFence
  rw [show (s.ahead l).slot h = s.slot h from rfl]
  split
  · rw [fenceSlot_ahead]; rfl
  · rfl

end

/-! ### Work that stops, and what it comes to -/

/-- No work is left in the channel of `a`. -/
def State.Quiet (s : State) (a : AxisId) : Prop := (s.channel a).rest = []

/-- What the work of the channel of `a` comes to once it has been ended without a stop. -/
def State.ending (s : State) (a : AxisId) : State := (s.channel a).rest.foldl (State.run a) (s.emptied a)

theorem ending_ahead (s : State) (l : List StopPoint) (a : AxisId) : (s.ahead l).ending a = s.ending a := rfl

theorem finish_ending (s : State) (a : AxisId) : s.finish a = (s.ending a).ahead s.stops := finish_eq s a

section
variable {a : AxisId} {s t u : State}

theorem emptied_quiet (quiet : s.Quiet a) : s.emptied a = s.ahead [] := by
  have same : ({ s.channel a with rest := [] } : Channel) = s.channel a := by
    rw [← (quiet : (s.channel a).rest = [])]
  unfold State.emptied
  rw [same]
  exact State.setChannel_self (s.ahead []) a

theorem ending_quiet (quiet : s.Quiet a) : s.ending a = s.ahead [] := by
  unfold State.ending
  rw [show (s.channel a).rest = [] from quiet]
  exact emptied_quiet quiet

theorem ending_defer (t : Task) : (s.defer a t).ending a = (s.ending a).run a t := by
  have emptied : (s.defer a t).emptied a = s.emptied a := by
    simp only [State.emptied, State.defer, State.setChannel_channel_self]
    exact State.setChannel_setChannel (s.ahead []) a _ _
  rw [State.ending, defer_rest, emptied, List.foldl_append]
  rfl

/-- A turn of a channel comes to its task, stopped or not, where the task itself does (R57). -/
theorem takeVia_ending {run : State → Task → State} {t : Task} (same : ∀ u, run u t = u.run a t)
    (comes : s.Quiet a → (run s t).ending a = run (s.ahead []) t) :
    (s.takeVia run a t).ending a = run (s.ending a) t := by
  unfold State.takeVia
  split
  · rw [ending_defer, same]
  · next goes =>
    have quiet : s.Quiet a := by
      have idle : s.busy a = false := by
        simp only [Bool.or_eq_true, not_or, Bool.not_eq_true] at goes
        exact goes.1
      simpa [State.busy, State.Quiet] using idle
    rw [comes quiet, ending_quiet quiet]

theorem quiet_of_way (same : t.way a = s.way a) (quiet : s.Quiet a) : t.Quiet a := by
  have rest := congrArg Prod.snd same
  exact rest.trans quiet

/-- Claims that finish a fire or a fence come to the claims, wherever they stop. -/
theorem claims_ending (ts : List Task) (claims : ∀ t ∈ ts, ∀ u : State, u.run a t = u.runClaim t) (s : State) :
    (ts.foldl (State.claim a) s).ending a = ts.foldl State.runClaim (s.ending a) := by
  induction ts generalizing s with
  | nil => rfl
  | cons t ts ih =>
    rw [List.foldl_cons, List.foldl_cons, ih (fun u m => claims u (List.mem_cons_of_mem _ m))]
    congr 1
    refine takeVia_ending (fun u => (claims t (by simp) u).symm) (fun quiet => ?_)
    rw [ending_quiet (quiet_of_way (runClaim_way a s t) quiet), runClaim_ahead]

theorem beginFence_claims (s : State) (h : Nat) : ∀ t ∈ (s.beginFence h).2, ∀ u : State, u.run a t = u.runClaim t := by
  intro t m u
  rcases beginFence_fromList (announced := true) s h t m with rfl | ⟨h, o, kind, act, rfl⟩ | ⟨h, b, p, rev, rfl⟩
  · unfold State.beginFence at m
    split at m
    · simp [Entry.fenceClaims] at m
    · cases m
  · rfl
  · rfl

theorem beginFence_quiet (h : Nat) (quiet : s.Quiet a) : (s.beginFence h).1.Quiet a := by
  have free : Free a (s.ahead []) := (free_iff a _).2 ⟨rfl, quiet⟩
  have begun : (((s.ahead []).beginFence h).1.channel a).rest = [] :=
    ((free_iff a _).1 (beginFence_keepsFree h free)).2
  rw [beginFence_ahead] at begun
  exact begun

theorem fenceFrom_ending (h : Nat) (quiet : s.Quiet a) : (s.fenceFrom a h).ending a = (s.ahead []).fenceFrom a h := by
  have free : Free a (s.ahead []) := (free_iff a _).2 ⟨rfl, quiet⟩
  rw [State.fenceFrom, claims_ending _ (beginFence_claims s h), ending_quiet (beginFence_quiet h quiet),
    (fenceFrom_free h free).1, beginFence_ahead]

theorem fire_ending (h : Nat) (dir : FireDir) (act : Activity) (quiet : s.Quiet a) :
    (s.fire a h dir act).ending a = (s.ahead []).fire a h dir act := by
  have free : Free a (s.ahead []) := (free_iff a _).2 ⟨rfl, quiet⟩
  cases live : s.slot h with
  | live e ok r =>
    rw [fire_free dir act (s := s.ahead []) live free]
    simp only [State.fire, live]
    split
    · have claims := claims_ending (a := a) [.hand h] (by simp [State.run, State.runPart, State.runEntry])
        (s.setSlot h (.live e ok (r.fired e (s.axis e.axis).revolution dir act)))
      rw [List.foldl_cons, List.foldl_nil, List.foldl_cons, List.foldl_nil, ending_quiet (a := a) (s := s.setSlot h _) quiet] at claims
      exact claims
    · exact ending_quiet (a := a) quiet
  | _ =>
    have same : (s.ahead []).slot h = s.slot h := rfl
    simp only [State.fire, same, live]
    exact ending_quiet quiet

theorem activate_ending (h : Nat) (e : Entry) (dir : FireDir) (timer : Option Nat) (quiet : s.Quiet a) :
    (s.activate a h e dir timer).ending a = (s.ahead []).activate a h e dir timer := by
  rw [State.activate, fire_ending h dir _ (quiet_of_way (countUpFor_way a s e) quiet), State.activate, countUpFor_ahead]

theorem judge_ending (h : Nat) {act act' : Entry → Run → State} (quiet : s.Quiet a)
    (comes : ∀ e r, (act e r).ending a = act' e r) :
    (s.judge a h act).ending a = (s.ahead []).judge a h act' := by
  unfold State.judge
  rw [show (s.ahead []).judged a h = s.judged a h from rfl]
  split
  · exact ending_quiet quiet
  · split
    · exact comes _ _
    · exact fenceFrom_ending h quiet

theorem settleEntry_ending (h : Nat) (e : Entry) (r : Run) (quiet : s.Quiet a) :
    (s.settleEntry a h e r).ending a = (s.ahead []).settleEntry a h e r := by
  unfold State.settleEntry
  split
  · rw [show (s.ahead []).inWindow = s.inWindow from rfl]
    split
    · exact activate_ending h e _ _ quiet
    · exact ending_quiet quiet
  · exact ending_quiet quiet

theorem endActivity_ending (h : Nat) (quiet : s.Quiet a) : (s.endActivity h).ending a = (s.ahead []).endActivity h := by
  rw [ending_quiet (quiet_of_way (endActivity_way a s h) quiet), endActivity_ahead]

/-- The two steps of a jump for one WINDOW come to themselves, wherever they stop. -/
theorem jumpDrop_ending (h : Nat) (quiet : s.Quiet a) :
    (s.runEntry a (.jumpDrop h)).ending a = (s.ahead []).runEntry a (.jumpDrop h) := by
  refine judge_ending h quiet (fun e r => ?_)
  rw [show (s.ahead []).inWindow = s.inWindow from rfl]
  split
  · split
    · exact ending_quiet quiet
    · exact endActivity_ending h quiet
  · exact ending_quiet quiet

theorem jumpSettle_ending (h : Nat) (quiet : s.Quiet a) :
    (s.runEntry a (.jumpSettle h)).ending a = (s.ahead []).runEntry a (.jumpSettle h) := by
  show (s.jumpSettle a h).ending a = (s.ahead []).jumpSettle a h
  unfold State.jumpSettle
  rw [show (s.ahead []).judged a h = s.judged a h from rfl]
  split
  · exact ending_quiet quiet
  · exact settleEntry_ending h _ _ quiet

/-- Work on entries that stops comes to the work without a stop (R57). -/
theorem takeEntries_ending (ts : List Task) (same : ∀ t ∈ ts, ∀ u : State, u.runEntry a t = u.run a t)
    (comes : ∀ t ∈ ts, ∀ u : State, u.Quiet a → (u.runEntry a t).ending a = (u.ahead []).runEntry a t) (s : State) :
    (s.takeEntries a ts).ending a = ts.foldl (State.runEntry a) (s.ending a) := by
  induction ts generalizing s with
  | nil => rfl
  | cons t ts ih =>
    have tail := ih (fun u m => same u (List.mem_cons_of_mem _ m)) (fun u m => comes u (List.mem_cons_of_mem _ m))
      (s.takeVia (State.runEntry a) a t)
    rw [List.foldl_cons, ← takeVia_ending (same t (by simp)) (comes t (by simp) s)]
    exact tail

end

end Sys2Proof.Machine
end

section
/-! SUPPORT. What a jump makes of the windows of its axis (R76), and index events (R52 to R54). -/

namespace Sys2Proof.Machine

/-! ### The windows at a jump -/

section
variable {a : AxisId} {s : State} {h : Nat} {e : Entry} {ok : Bool} {r : Run} {o : OutId} {off : Nat}

/-- What step 1 of a jump leaves in the slot of a WINDOW: IDLE where it does not contain the position, and FENCED where it is
inconsistent (R76). -/
def State.droppedSlot (s : State) (e : Entry) (ok : Bool) (r : Run) (off : Nat) : Slot :=
  if ok then (if s.inWindow e off then .live e true r else .live e true { r with activity := .idle })
  else .fenced e false r.log

theorem jumpDrop_slot_self (live : s.slot h = .live e ok r) (own : e.axis = a) (window : e.action = .window o off)
    (referenced : (s.axis a).referenced = true) (working : (s.axis a).state ≠ .faulted) :
    (s.runEntry a (.jumpDrop h)).slot h = s.droppedSlot e ok r off := by
  have judged := judged_of_live live own referenced working
  show (s.judge a h _).slot h = _
  cases ok with
  | false => exact judge_slot_of_inconsistent judged _
  | true =>
    rw [judge_of_ok judged, window]
    simp only [State.droppedSlot, if_true]
    split
    · exact live
    · exact endActivity_slot_self_live live

/-- Step 2 of a jump for a WINDOW that is judged no more leaves it. -/
theorem jumpSettle_slot_unjudged (fenced : ∀ e ok r, s.slot h ≠ .live e ok r) :
    (s.runEntry a (.jumpSettle h)).slot h = s.slot h := by
  show (s.jumpSettle a h).slot h = s.slot h
  unfold State.jumpSettle State.judged
  split
  · rfl
  · next judged =>
    split at judged
    · next live => exact absurd live (fenced _ _ _)
    · cases judged

theorem jumpSettle_slot_self (live : s.slot h = .live e true r) (own : e.axis = a) (window : e.action = .window o off)
    (referenced : (s.axis a).referenced = true) (working : (s.axis a).state ≠ .faulted) (free : Free a s) :
    (s.runEntry a (.jumpSettle h)).slot h = s.settledSlot e r off := by
  show (s.jumpSettle a h).slot h = _
  unfold State.jumpSettle
  rw [judged_of_live live own referenced working]
  exact settleEntry_slot_self live window free

theorem droppedSlot_near {t : State} (near : State.Near s t) : t.droppedSlot e ok r off = s.droppedSlot e ok r off := by
  simp only [State.droppedSlot, near.inWindow]

/-- The tasks of a jump: step 1 for every WINDOW, then step 2 (R76). -/
def jumpTasks (windows : List Nat) : List Task := windows.map Task.jumpDrop ++ windows.map Task.jumpSettle

theorem evaluateJump_free (free : Free a s) :
    s.evaluateJump a = (jumpTasks (s.liveWindows a)).foldl (State.runEntry a) s := (takeEntries_free s _ free).1

/-- The windows of a REFERENCED axis that is not FAULTED after a jump (R76). -/
theorem evaluateJump_jumped (referenced : (s.axis a).referenced = true) (working : (s.axis a).state ≠ .faulted)
    (free : Free a s) : s.WindowsJumped (s.evaluateJump a) a := by
  have near : State.Near s (s.evaluateJump a) := takeEntries_near a s _
  have nodup := liveInOrder_nodup s a Entry.isWindow
  intro h below e ok r o off live own window
  have mem : h ∈ s.liveWindows a := by
    refine mem_liveInOrder.2 ⟨below, ?_⟩
    simp [live, Slot.liveWith, own, Entry.isWindow, Entry.kind, window]
  have drops := takeEntries_free s ((s.liveWindows a).map Task.jumpDrop) free
  have near₁ : State.Near s (s.takeEntries a ((s.liveWindows a).map Task.jumpDrop)) := takeEntries_near a s _
  obtain ⟨u, before, slot, free₁, turn⟩ := turns_slot a (f := Task.jumpDrop) (fun _ => rfl) nodup mem free
  have dropped : (s.takeEntries a ((s.liveWindows a).map Task.jumpDrop)).slot h = s.droppedSlot e ok r off := by
    rw [drops.1]
    exact (turn.trans (jumpDrop_slot_self (slot.trans live) own window (by rw [before.axis]; exact referenced)
      (by rw [before.axis]; exact working))).trans (droppedSlot_near before)
  obtain ⟨w, before', slot', free₂, turn'⟩ :=
    turns_slot a (f := Task.jumpSettle) (fun _ => rfl) nodup mem drops.2
  have near₂ := near₁.trans before'
  have slot₂ : w.slot h = s.droppedSlot e ok r off := slot'.trans dropped
  have result : (s.evaluateJump a).slot h = (w.runEntry a (.jumpSettle h)).slot h := by
    rw [evaluateJump_free free, jumpTasks, List.foldl_append, ← drops.1]
    exact turn'
  have settled (r' : Run) (live' : w.slot h = .live e true r') :
      (s.evaluateJump a).slot h = s.settledSlot e r' off := by
    rw [result, jumpSettle_slot_self live' own window (by rw [near₂.axis]; exact referenced)
      (by rw [near₂.axis]; exact working) free₂, settledSlot_near near₂]
  rw [near.inWindow]
  refine ⟨fun inconsistent => ?_, fun consistent inside idle unspent => ?_, fun consistent inside busy => ?_,
    fun consistent outside => ?_⟩
  · subst inconsistent
    rw [result, jumpSettle_slot_unjudged (by rw [slot₂]; exact nofun), slot₂]
    rfl
  · subst consistent
    rw [settled r (slot₂.trans (by simp [State.droppedSlot, inside])), State.settledSlot, if_pos ⟨idle, unspent, inside⟩, own]
  · subst consistent
    rw [settled r (slot₂.trans (by simp [State.droppedSlot, inside])), State.settledSlot, if_neg, live]
    rintro ⟨idle, unspent, -⟩
    rcases busy with active | spent
    · exact active idle
    · rw [spent] at unspent; cases unspent
  · subst consistent
    rw [settled { r with activity := .idle } (slot₂.trans (by simp [State.droppedSlot, outside])), State.settledSlot, if_neg]
    rintro ⟨-, -, inside⟩
    rw [outside] at inside; cases inside

/-- A jump leaves every slot but those of the windows of its axis (R76). -/
theorem evaluateJump_slot_other (s : State) (a : AxisId) {k : Nat}
    (other : (s.slot k).liveWith (fun e => e.axis == a && e.isWindow) = false) : (s.evaluateJump a).slot k = s.slot k := by
  have unnamed : k ∉ s.liveWindows a := fun mem => by
    have live := (mem_liveInOrder.1 mem).2
    rw [other] at live
    cases live
  refine takeEntries_slot_ne a _ s (fun t m => ?_)
  rcases List.mem_append.1 m with m | m <;>
  · obtain ⟨h, mem, rfl⟩ := List.mem_map.1 m
    rintro ⟨⟩
    exact unnamed mem

/-- A jump that stops comes to the jump without a stop, once its channel has ended its work (R57). -/
theorem evaluateJump_ending (quiet : s.Quiet a) : (s.evaluateJump a).ending a = (s.ahead []).evaluateJump a := by
  have free : Free a (s.ahead []) := (free_iff a _).2 ⟨rfl, quiet⟩
  have turns : ∀ t ∈ jumpTasks (s.liveWindows a), ∃ k, t = .jumpDrop k ∨ t = .jumpSettle k := by
    intro t m
    rcases List.mem_append.1 m with m | m
    · obtain ⟨k, -, rfl⟩ := List.mem_map.1 m; exact ⟨k, .inl rfl⟩
    · obtain ⟨k, -, rfl⟩ := List.mem_map.1 m; exact ⟨k, .inr rfl⟩
  have ended := takeEntries_ending (a := a) (jumpTasks (s.liveWindows a))
    (fun t m u => by rcases turns t m with ⟨k, rfl | rfl⟩ <;> rfl)
    (fun t m u quiet => by
      rcases turns t m with ⟨k, rfl | rfl⟩
      · exact jumpDrop_ending k quiet
      · exact jumpSettle_ending k quiet) s
  rw [ending_quiet quiet] at ended
  rw [evaluateJump_free free]
  exact ended

/-- What the windows of an axis are after a jump depends on their slots, the revolution count, and what contains the
position. -/
theorem windowsJumped_of_same {s s' t t' : State} {a : AxisId} (slots : ∀ h, s'.slot h = s.slot h)
    (revolution : (s'.axis a).revolution = (s.axis a).revolution) (slots' : ∀ h, t'.slot h = t.slot h)
    (inside : t'.inWindow = t.inWindow) (jumped : s.WindowsJumped t a) : s'.WindowsJumped t' a := by
  intro h below e ok r o off live own window
  rw [slots] at live
  rw [slots', slots, inside, revolution]
  exact jumped h below e ok r o off live own window

end

end Sys2Proof.Machine
end

section
/-! SUPPORT. Index events (R52 to R54). -/

namespace Sys2Proof.Machine

theorem State.latched_of_still {s t : State} (same : t.still = s.still) : t.latched = s.latched := by
  simp only [State.still, Prod.mk.injEq] at same
  exact same.2.2.2.2.2.1

section
variable {s : State} {a : AxisId}

/-- The deviation is the signed distance of least magnitude, half the modulus kept positive (R54). -/
theorem deviation_eq {modulus tracked index : Nat} {d : Int} (low : -(modulus : Int) < 2 * d)
    (high : 2 * d ≤ modulus) (same : ((tracked : Int) - index - d) % (modulus : Int) = 0) :
    deviation modulus tracked index = d := by
  have congruent : ((tracked : Int) - index) % modulus = d % modulus := Int.emod_eq_emod_iff_emod_sub_eq_zero.2 same
  unfold deviation
  simp only [congruent]
  rcases lt_or_ge d 0 with neg | pos
  · have wrapped : d % (modulus : Int) = d + modulus := by
      rw [← Int.add_emod_right, Int.emod_eq_of_lt (by omega) (by omega)]
    rw [wrapped, if_pos (by omega)]
    omega
  · have plain : d % (modulus : Int) = d := Int.emod_eq_of_lt pos (by omega)
    rw [plain, if_neg (by omega)]

/-- The state with the recognized level of Z high. -/
abbrev State.risen (s : State) (a : AxisId) : State :=
  s.setLines a { (s.axis a).lines with z := true }

/-- A rise that is no index event sets the level of Z alone (R52). -/
theorem execIndexEvent_plain {samples : Nat} (order : FaultOrder) (quiet : s.busy a = false)
    (recognized : (s.axis a).recognizes samples = true) (low : (s.axis a).lines.z = false)
    (plain : (s.axis a).countsEncoder = false ∨ (s.axis a).indexPoint = none) :
    execIndexEvent a samples order s = .next (s.risen a) := by
  unfold execIndexEvent
  simp only
  rw [if_pos ⟨recognized, low⟩, endApplying_of_not (applying_of_quiet quiet)]
  split
  · next counts index =>
    rcases plain with not | none
    · rw [not] at counts; cases counts
    · rw [none] at index; cases index
  · rfl

/-- An index event of a RUNNING ENCODER axis with an index point (R52). -/
theorem execIndexEvent_index {samples index : Nat} (order : FaultOrder) (quiet : s.busy a = false)
    (recognized : (s.axis a).recognizes samples = true) (low : (s.axis a).lines.z = false)
    (counts : (s.axis a).countsEncoder = true) (point : (s.axis a).indexPoint = some index) :
    execIndexEvent a samples order s
      = .next ((((s.risen a).ahead order.stops).indexEvent a index order).ahead s.stops) := by
  have empty : (s.channel a).rest = [] := by simpa [State.busy] using quiet
  unfold execIndexEvent
  simp only [recognized, low, counts, point, and_self, if_true, finish_quiet empty]
  rfl

/-- The state in which an index event evaluates its jump (R53). -/
def State.indexed (s : State) (a : AxisId) (index : Nat) : State :=
  ((s.risen a).setAxis a (((s.risen a).axis a).jumped index)).latch reasonAxisChanged

theorem indexEvent_jump {l : List StopPoint} {index : Nat} (order : FaultOrder)
    (unreferenced : (s.axis a).referenced = false) :
    ((s.risen a).ahead l).indexEvent a index order = ((s.indexed a index).ahead l).evaluateJump a := by
  have same : (((s.risen a).ahead l).axis a).referenced = false := by
    show ((s.risen a).axis a).referenced = false
    rw [setLines_axis]; exact unreferenced
  unfold State.indexEvent
  rw [if_neg (by rw [same]; exact Bool.false_ne_true)]
  rfl

theorem indexEvent_check {l : List StopPoint} {index : Nat} (order : FaultOrder)
    (referenced : (s.axis a).referenced = true) :
    ((s.risen a).ahead l).indexEvent a index order = ((s.risen a).ahead l).checkIndex a index order := by
  have same : (((s.risen a).ahead l).axis a).referenced = true := by
    show ((s.risen a).axis a).referenced = true
    rw [setLines_axis]; exact referenced
  unfold State.indexEvent
  rw [if_pos same]

end

section
variable {s : State} {a : AxisId} {index : Nat} (order : FaultOrder)

/-- No deviation, no change (R54). -/
theorem checkIndex_exact (exact_ : deviation (s.axis a).modulus (s.axis a).tracked index = 0) :
    s.checkIndex a index order = s := by
  simp [State.checkIndex, exact_]

/-- A deviation within the tolerance corrects the backlog (R54). -/
theorem checkIndex_corrects {d : Int} (dev : deviation (s.axis a).modulus (s.axis a).tracked index = d) (ne : d ≠ 0)
    (tolerated : d.natAbs ≤ (s.axis a).tolerance.toNat) (within : ((s.axis a).backlog - d).natAbs ≤ 1023) :
    s.checkIndex a index order = s.setAxis a { s.axis a with
      backlog := (s.axis a).backlog - d, corrections := min 255 ((s.axis a).corrections + 1) } := by
  have room : ((s.axis a).backlog - d).natAbs ≤ Config.backlogLimit := within
  simp only [State.checkIndex, dev]
  rw [if_neg ne, if_pos tolerated, if_pos room, addCounts_within order (by rw [State.setAxis_axis_self]; exact within),
    State.setAxis_axis_self, State.setAxis_setAxis]
  rfl

/-- A correction that would bring the backlog to 1024 faults the axis (R54). -/
theorem checkIndex_overruns {d : Int} (dev : deviation (s.axis a).modulus (s.axis a).tracked index = d) (ne : d ≠ 0)
    (tolerated : d.natAbs ≤ (s.axis a).tolerance.toNat) (past : 1023 < ((s.axis a).backlog - d).natAbs) :
    s.checkIndex a index order = s.axisFault a .countOverrun order := by
  have full : ¬ ((s.axis a).backlog - d).natAbs ≤ Config.backlogLimit := Nat.not_le.2 past
  simp only [State.checkIndex, dev]
  rw [if_neg ne, if_pos tolerated, if_neg full]

/-- A deviation past the tolerance faults the axis (R54). -/
theorem checkIndex_mismatch {d : Int} (dev : deviation (s.axis a).modulus (s.axis a).tracked index = d)
    (past : (s.axis a).tolerance.toNat < d.natAbs) : s.checkIndex a index order = s.axisFault a (.indexMismatch d) order := by
  have ne : d ≠ 0 := by rintro rfl; simp at past
  simp only [State.checkIndex, dev]
  rw [if_neg ne, if_neg (Nat.not_le.2 past)]

end

/-- The fault of an index event: its stop points stand for it alone. -/
theorem indexFault_taken {s : State} {a : AxisId} (quiet : s.busy a = false) (running : (s.axis a).state = .running)
    (cause : FaultCause) (order : FaultOrder) (l : List StopPoint) :
    FaultTaken s ((((s.ahead order.stops).axisFault a cause order).ahead l).finish a) a cause order.silentLater :=
  ((axisFault_claims (s := s.ahead order.stops) quiet running cause order).stops l).finished

end Sys2Proof.Machine

open Sys2Proof Sys2Proof.Machine

/-- Settles O20: an index event of an UNREFERENCED axis is a jump, whose work comes to the same wherever it stops; of a
REFERENCED one it is judged by the deviation. -/
theorem indexEventsReferenceAndCheck : Obligations.IndexEventsReferenceAndCheck := by
  unfold Obligations.IndexEventsReferenceAndCheck
  intro s a samples order x risen index quiet low long configured
  have recognized : x.recognizes samples = true := recognizes_of configured long
  have empty : (s.channel a).rest = [] := by simpa [State.busy] using quiet
  refine ⟨fun plain => ?_, fun p running encoder point => ?_⟩
  · refine execIndexEvent_plain order quiet recognized low ?_
    rcases plain with stopped | other | none
    · exact .inl (by simp [Axis.countsEncoder, x] at stopped ⊢; exact fun h => absurd h stopped)
    · exact .inl (by simp [Axis.countsEncoder, x] at other ⊢; exact fun _ => other)
    · exact .inr none
  · have event : index = .next ((((s.risen a).ahead order.stops).indexEvent a p order).ahead s.stops) :=
      execIndexEvent_index order quiet recognized low (countsEncoder_of running encoder) point
    have record : (s.risen a).axis a = risen := setLines_axis s a _
    have running' : ((s.risen a).axis a).state = .running := by rw [record]; exact running
    refine ⟨fun unreferenced => ⟨_, event, ?_⟩, fun d referenced positive least most same => ?_⟩
    · rw [indexEvent_jump order unreferenced]
      have still := evaluateJump_still ((s.indexed a p).ahead order.stops) a
      have record' : (s.indexed a p).axis a = risen.jumped p := by
        rw [State.indexed, record]
        exact State.setAxis_axis_self _ _ _
      have free : Free a ((s.indexed a p).ahead []) := (free_iff a _).2 ⟨rfl, empty⟩
      refine ⟨?_, ?_, ?_, fun h _ other => ?_⟩
      · rw [ahead_axis, State.axis_of_still still, ahead_axis, record']
        rfl
      · rw [ahead_latched, State.latched_of_still still]
        rfl
      · have jumped := evaluateJump_jumped (s := (s.indexed a p).ahead []) (a := a)
          (by rw [ahead_axis, record']; rfl)
          (by rw [ahead_axis, record']; simp [Axis.jumped, risen, running]) free
        rw [finish_ending, ending_ahead, evaluateJump_ending (s := (s.indexed a p).ahead order.stops) empty,
          ahead_ahead]
        exact windowsJumped_of_same (s := (s.indexed a p).ahead []) (fun _ => rfl) (by rw [ahead_axis, record']; rfl) (fun _ => ahead_slot _ _ _)
          (ahead_inWindow _ _) jumped
      · rw [ahead_slot, evaluateJump_slot_other _ a (by rw [ahead_slot]; exact other), ahead_slot]
        rfl
    · have dev : deviation ((s.risen a).axis a).modulus ((s.risen a).axis a).tracked p = d := by
        rw [record]; exact deviation_eq least most same
      have checked : index = .next ((((s.risen a).ahead order.stops).checkIndex a p order).ahead s.stops) := by
        rw [event, indexEvent_check order referenced]
      refine ⟨fun zero => ?_, fun ne tolerated within => ?_, fun ne tolerated past => ⟨_, checked, ?_⟩,
        fun past => ⟨_, checked, ?_⟩⟩
      · rw [checked, checkIndex_exact (s := (s.risen a).ahead order.stops) order (dev.trans zero)]
        rfl
      · rw [checked, checkIndex_corrects (s := (s.risen a).ahead order.stops) order dev ne
          (by show d.natAbs ≤ ((s.risen a).axis a).tolerance.toNat; rw [record]; exact tolerated)
          (by show (((s.risen a).axis a).backlog - d).natAbs ≤ 1023; rw [record]; exact within)]
        show Host.Outcome.next ((s.risen a).setAxis a { (s.risen a).axis a with
          backlog := ((s.risen a).axis a).backlog - d
          corrections := min 255 (((s.risen a).axis a).corrections + 1) }) = _
        rw [record, State.risen, State.setLines, State.setAxis_setAxis]
      · rw [checkIndex_overruns (s := (s.risen a).ahead order.stops) order dev ne
          (by show d.natAbs ≤ ((s.risen a).axis a).tolerance.toNat; rw [record]; exact tolerated)
          (by show 1023 < (((s.risen a).axis a).backlog - d).natAbs; rw [record]; exact past)]
        exact indexFault_taken (s := s.risen a) quiet running' _ order _
      · rw [checkIndex_mismatch (s := (s.risen a).ahead order.stops) order dev
          (by show ((s.risen a).axis a).tolerance.toNat < d.natAbs; rw [record]; exact past)]
        exact indexFault_taken (s := s.risen a) quiet running' _ order _

end

section
/-! SUPPORT. CONFIG_AXIS of a configured axis (R35, R36) and SET_POSITION (R41). -/

namespace Sys2Proof.Machine

section
variable {a : AxisId} {s t : State}

/-- A block that waits for a free channel has its outcome at once (R181). -/
theorem served_of_free (free : Free a s) : s.served a = (s, .channel a (.reply .done []) []) := by
  have parts : s.takeParts a [.served] = s := (takeParts_free s [.served] free).1
  simp only [State.served, parts]

theorem goOn_served (free : Free a s) : s.goOn ((Work.channel a (.reply .done []) []).inOrder []) = (s, bare .done) := by
  have went := served_free free
  rwa [served_of_free free] at went

theorem answers_inWindow (s : State) (code tag : Byte) (w : Work) : (s.answers code tag w).inWindow = s.inWindow := rfl

theorem answers_latched (s : State) (code tag : Byte) (w : Work) : (s.answers code tag w).latched = s.latched := rfl

/-- The port record of an accepted request depends on the request alone. -/
theorem answers_port (s t : State) (code tag : Byte) (w : Work) :
    (s.answers code tag w).port = (t.answers code tag w).port := rfl

theorem free_answers (code tag : Byte) (w : Work) (free : Free a s) : Free a (s.answers code tag w) := free

theorem finish_answers_quiet (code tag : Byte) (w : Work) (quiet : s.busy a = false) :
    (s.answers code tag w).finish a = s.answers code tag w :=
  finish_quiet (by simpa [State.busy] using quiet)

theorem stops_of_free (free : Free a s) : s.stops = [] := ((free_iff a s).1 free).1

/-! ### Windows that have been settled -/

/-- What the windows of an axis are after their settle depends on their slots, the revolution count, and what contains the
position. -/
theorem windowsSettled_of_same {s' t' : State} (slots : ∀ h, s'.slot h = s.slot h)
    (revolution : (s'.axis a).revolution = (s.axis a).revolution) (slots' : ∀ h, t'.slot h = t.slot h)
    (inside : t'.inWindow = t.inWindow) (settled : s.WindowsSettled t a) : s'.WindowsSettled t' a := by
  obtain ⟨windows, others⟩ := settled
  refine ⟨fun h below e ok r o off live own window => ?_, fun h below other => ?_⟩
  · rw [slots] at live
    rw [slots', slots, inside, revolution]
    exact windows h below e ok r o off live own window
  · rw [slots] at other
    rw [slots', slots]
    exact others h below other

/-- The silent end of an axis leaves its entries IDLE (R79). -/
theorem silenceAxis_silentlyEnded (s : State) (a : AxisId) : s.SilentlyEnded (s.silenceAxis a) a := by
  intro h below
  rw [silenceAxis_slot]
  cases v : s.slot h with
  | live e ok r =>
    by_cases own : e.axis = a
    · simp [Slot.liveWith, Slot.silenced, own, below]
    · simp [Slot.liveWith, own]
  | _ => simp [Slot.liveWith]

/-! ### SET_POSITION -/

theorem jumpTo_free (v : Nat) (free : Free a s) : Free a (s.jumpTo a v) :=
  (takeEntries_free (s.setAxis a ((s.axis a).jumped v)) _ (free_of_way (setAxis_way a a s _) free)).2

theorem setPositionArgs_length (v : Nat) : ([byteOf a] ++ bytesOf 2 v).length = 3 := by simp [bytesOf_length]

/-- A SET_POSITION whose block works at once, by what the block makes of the value (R41). -/
theorem execSetPosition_worked {u : State} {tag : Byte} {v : Nat} {left done : Work} (ready : s.ReadyAlone tag)
    (below : v < 65536)
    (worked : (s.answers 0x13#8 tag (.waiting ([byteOf a] ++ bytesOf 2 v) ⟨false, false, false⟩ .prompt)).setPosition a v
      = (t.answers 0x13#8 tag (.waiting ([byteOf a] ++ bytesOf 2 v) ⟨false, false, false⟩ .prompt), left))
    (wentOn : t.goOn (left.inOrder []) = (u, done)) (stops : u.stops = []) :
    exec (.setPosition ⟨frameRest 0x13#8 tag ([byteOf a] ++ bytesOf 2 v), .prompt⟩) s
      = .next (u.answers 0x13#8 tag done) := by
  have value : natAt ([byteOf a] ++ bytesOf 2 v) 1 2 = v := by
    have at_ := natAt_bytesOf_append [byteOf a] [] 1 2 v rfl (by simpa using below)
    rwa [List.append_nil] at at_
  exact congrArg Host.Outcome.next (request_worked (n := 3) rfl (setPositionArgs_length v) (by decide) ready
    (by rw [setPositionBlock, axisOf_first, value]; exact worked) wentOn stops)

theorem execSetPosition_refused {tag : Byte} {v : Nat} {status : Status} (ready : s.ReadyAlone tag)
    (below : v < 65536) (refused : ∀ w, (s.answers 0x13#8 tag w).setPosition a v = (s.answers 0x13#8 tag w, bare status)) :
    exec (.setPosition ⟨frameRest 0x13#8 tag ([byteOf a] ++ bytesOf 2 v), .prompt⟩) s
      = .next (s.answers 0x13#8 tag (bare status)) :=
  execSetPosition_worked ready below (refused _) rfl (stops_of_ready ready)

theorem setPosition_above {v : Nat} (state : (s.axis a).state = .halted ∨ (s.axis a).state = .running)
    (above : (s.axis a).modulus ≤ v) : s.setPosition a v = (s, bare .badValue) := by
  have out : ¬ v < (s.axis a).modulus := Nat.not_lt.2 above
  rcases state with state | state <;> simp only [State.setPosition, state, out, if_false]

theorem setPosition_stopped (v : Nat)
    (state : (s.axis a).state = .off ∨ (s.axis a).state = .halting ∨ (s.axis a).state = .faulted) :
    s.setPosition a v = (s, bare .wrongState) := by
  rcases state with state | state | state <;> simp only [State.setPosition, state]

/-- A SET_POSITION of a HALTED or RUNNING axis jumps (R41). -/
theorem execSetPosition_jumps {tag : Byte} {v : Nat} (ready : s.ReadyAlone tag) (below : v < 65536)
    (state : (s.axis a).state = .halted ∨ (s.axis a).state = .running) (quiet : s.busy a = false)
    (within : v < (s.axis a).modulus) :
    exec (.setPosition ⟨frameRest 0x13#8 tag ([byteOf a] ++ bytesOf 2 v), .prompt⟩) s
      = .next ((s.jumpTo a v).answers 0x13#8 tag (bare .done)) := by
  have free := jumpTo_free v (free_of_ready ready quiet)
  refine execSetPosition_worked ready below (t := s.jumpTo a v) ?_ (goOn_served free) (stops_of_free free)
  have jumped := fun w => jumpTo_answers a v s 0x13#8 tag w
  rcases state with state | state <;>
  · simp only [State.setPosition, State.answers_axis, state, within, if_true, finish_answers_quiet _ _ _ quiet, jumped]
    exact served_of_free (free_answers 0x13#8 tag _ free)

end

end Sys2Proof.Machine

open Sys2Proof Sys2Proof.Machine

/-- Settles O16: the jump writes the axis record and works on the windows of the axis alone. -/
theorem setPositionJumps : Obligations.SetPositionJumps := by
  unfold Obligations.SetPositionJumps
  intro s tag a v ready below x set
  refine ⟨fun state quiet within => ?_, fun state above => ?_, fun state => ?_⟩
  · refine ⟨_, execSetPosition_jumps ready below state quiet within, ?_⟩
    have free : Free a (s.setAxis a (x.jumped v)) := free_of_ready (s := s) ready quiet
    have still : (s.jumpTo a v).still = (s.setAxis a (x.jumped v)).still := evaluateJump_still _ a
    have record : (s.setAxis a (x.jumped v)).axis a = x.jumped v := State.setAxis_axis_self s a _
    have working : (x.jumped v).state ≠ .faulted := by
      show x.state ≠ .faulted
      rcases state with state | state <;> rw [state] <;> exact nofun
    refine ⟨?_, fun b ne => ?_, answers_port _ _ _ _ _, ?_, ?_, fun h _ other => ?_⟩
    · rw [State.answers_axis, State.axis_of_still still, record]
      rfl
    · rw [State.answers_axis, State.axis_of_still still, State.setAxis_axis, if_neg (Ne.symm ne)]
    · rw [answers_latched, State.latched_of_still still]
      rfl
    · have jumped : (s.setAxis a (x.jumped v)).WindowsJumped (s.jumpTo a v) a :=
        evaluateJump_jumped (by rw [record]; rfl) (by rw [record]; exact working) free
      exact windowsJumped_of_same (s := s.setAxis a (x.jumped v)) (fun _ => rfl) (by rw [record]; rfl)
        (fun _ => State.answers_slot _ _ _ _ _) (answers_inWindow _ _ _ _) jumped
    · rw [State.answers_slot]
      exact evaluateJump_slot_other (s.setAxis a (x.jumped v)) a other
  · exact execSetPosition_refused ready below (fun w => setPosition_above (s := s.answers 0x13#8 tag w) state above)
  · exact execSetPosition_refused ready below (fun w => setPosition_stopped (s := s.answers 0x13#8 tag w) v state)

end

section
/-! SUPPORT. CONFIG_AXIS of a configured axis (R35, R36). -/

namespace Sys2Proof.Machine

section
variable {a : AxisId} {s : State}

/-- A CONFIG_AXIS that is refused or done at once. -/
theorem execConfigAxis_settled {tag : Byte} {c : AxisConfig} {l : Lines} {t : State} {status : Status}
    (ready : s.ReadyAlone tag) (range : c.InRange)
    (worked : ∀ w, (s.answers 0x10#8 tag w).configAxis a c l = (t.answers 0x10#8 tag w, bare status))
    (stops : t.stops = []) :
    exec (.configAxis ⟨frameRest 0x10#8 tag (configAxisArgs a c), .prompt⟩ l) s = .next (t.answers 0x10#8 tag (bare status)) :=
  execConfigAxis_worked ready range (worked _) rfl stops

theorem configAxis_stopped (c : AxisConfig) (l : Lines)
    (state : (s.axis a).state = .running ∨ (s.axis a).state = .halting ∨ (s.axis a).state = .faulted) :
    s.configAxis a c l = (s, bare .wrongState) := by
  rcases state with state | state | state <;> simp only [State.configAxis, state]

theorem switchAxisOff_stopped
    (state : (s.axis a).state = .running ∨ (s.axis a).state = .halting ∨ (s.axis a).state = .faulted) :
    s.switchAxisOff a = (s, bare .wrongState) := by
  rcases state with state | state | state <;> simp only [State.switchAxisOff, state]

theorem switchAxisOff_halted (halted : (s.axis a).state = .halted) : s.switchAxisOff a
    = if s.axisHasDependents a then (s, bare .hasDependents) else (s.setAxis a (s.axis a).switchedOff, bare .done) := by
  simp only [State.switchAxisOff, halted]

/-- Another modulus is taken by a HALTED axis on which nothing depends (R36). -/
theorem configAxis_remodulus {c : AxisConfig} (l : Lines) (halted : (s.axis a).state = .halted)
    (other : c.modulus ≠ (s.axis a).modulus) : s.configAxis a c l
      = if s.axisHasDependents a then (s, bare .hasDependents) else (s.setAxis a ((s.axis a).remodulused c), bare .done) := by
  simp only [State.configAxis, halted]
  rw [if_neg other]

/-- Under its present modulus a HALTED axis is configured again by its channel (R35). -/
theorem configAxis_keeps {c : AxisConfig} (l : Lines) (halted : (s.axis a).state = .halted)
    (same : c.modulus = (s.axis a).modulus) (quiet : s.busy a = false) :
    s.configAxis a c l = (s.reconfigure a c).served a := by
  have empty : (s.channel a).rest = [] := by simpa [State.busy] using quiet
  simp only [State.configAxis, halted]
  rw [if_pos same, finish_quiet empty]

theorem reconfigure_plain {c : AxisConfig} (same : c.source = .encoder ↔ (s.axis a).source = .encoder) :
    s.reconfigure a c = s.setAxis a ((s.axis a).configure c) := by
  unfold State.reconfigure
  by_cases encoder : (s.axis a).source = .encoder
  · simp only [encoder, same.2 encoder, decide_true]
  · have other : c.source ≠ .encoder := fun h => encoder (same.1 h)
    simp only [encoder, other, decide_false]

theorem reconfigure_fromEncoder {c : AxisConfig} (was : (s.axis a).source = .encoder) (is : c.source ≠ .encoder) :
    s.reconfigure a c
      = (s.setAxis a { (s.axis a).configure c with referenced := true, corrections := 0 }).settleWindows a := by
  unfold State.reconfigure
  simp only [was, is, decide_true, decide_false]

theorem reconfigure_toEncoder {c : AxisConfig} (was : (s.axis a).source ≠ .encoder) (is : c.source = .encoder) :
    s.reconfigure a c = (s.setAxis a { (s.axis a).configure c with referenced := false }).silenceAxis a := by
  unfold State.reconfigure
  simp only [was, is, decide_true, decide_false]

theorem reconfigure_answers (s : State) (a : AxisId) (c : AxisConfig) (code tag : Byte) (w : Work) :
    (s.answers code tag w).reconfigure a c = (s.reconfigure a c).answers code tag w := by
  by_cases was : (s.axis a).source = .encoder <;> by_cases is : c.source = .encoder
  · have same : c.source = .encoder ↔ (s.axis a).source = .encoder := by simp [was, is]
    rw [reconfigure_plain same, reconfigure_plain (s := s.answers code tag w) same]
    rfl
  · rw [reconfigure_fromEncoder was is, reconfigure_fromEncoder (s := s.answers code tag w) was is]
    exact settleWindows_answers a (s.setAxis a _) code tag w
  · rw [reconfigure_toEncoder was is, reconfigure_toEncoder (s := s.answers code tag w) was is]
    exact silenceAxis_answers a (s.setAxis a _) code tag w
  · have same : c.source = .encoder ↔ (s.axis a).source = .encoder := by simp [was, is]
    rw [reconfigure_plain same, reconfigure_plain (s := s.answers code tag w) same]
    rfl

theorem reconfigure_free (c : AxisConfig) (free : Free a s) : Free a (s.reconfigure a c) := by
  unfold State.reconfigure
  simp only
  split
  · exact (takeEntries_free _ _ (free_of_way (setAxis_way a a s _) free)).2
  · exact free_of_way ((silenceAxis_way a a _).trans (setAxis_way a a s _)) free
  · exact free_of_way (setAxis_way a a s _) free

/-- A CONFIG_AXIS of a HALTED axis under its present modulus (R35). -/
theorem execConfigAxis_keeps {tag : Byte} {c : AxisConfig} {l : Lines} (ready : s.ReadyAlone tag) (range : c.InRange)
    (halted : (s.axis a).state = .halted) (quiet : s.busy a = false) (same : c.modulus = (s.axis a).modulus) :
    exec (.configAxis ⟨frameRest 0x10#8 tag (configAxisArgs a c), .prompt⟩ l) s
      = .next ((s.reconfigure a c).answers 0x10#8 tag (bare .done)) := by
  have free := reconfigure_free c (free_of_ready ready quiet)
  refine execConfigAxis_worked ready range (t := s.reconfigure a c) ?_ (goOn_served free) (stops_of_free free)
  rw [configAxis_keeps (s := s.answers _ _ _) l halted same quiet, reconfigure_answers]
  exact served_of_free (free_answers 0x10#8 tag _ free)

theorem answers_axes (s : State) (code tag : Byte) (w : Work) : (s.answers code tag w).axes = s.axes := rfl

/-- What ended silently on an axis depends on the slots alone. -/
theorem silentlyEnded_of_same {s' t t' : State} (slots : ∀ h, s'.slot h = s.slot h) (slots' : ∀ h, t'.slot h = t.slot h)
    (ended : s.SilentlyEnded t a) : s'.SilentlyEnded t' a := by
  intro h below
  rw [slots', slots]
  exact ended h below

/-- The settle of the windows of a REFERENCED axis whose record has been written. -/
theorem setAxis_settled {y : Axis} (free : Free a s) (referenced : y.referenced = true) (working : y.state ≠ .faulted)
    (revolution : y.revolution = (s.axis a).revolution) (code tag : Byte) (w : Work) :
    s.WindowsSettled (((s.setAxis a y).settleWindows a).answers code tag w) a := by
  have record : (s.setAxis a y).axis a = y := State.setAxis_axis_self s a y
  have settled := settleWindows_settled (s := s.setAxis a y) (a := a) (by rw [record]; exact referenced)
    (by rw [record]; exact working) (free_of_way (setAxis_way a a s _) free)
  exact windowsSettled_of_same (s := s.setAxis a y) (fun _ => rfl) (by rw [record]; exact revolution.symm)
    (fun _ => State.answers_slot _ _ _ _ _) (answers_inWindow _ _ _ _) settled

/-- The silent end of the entries of an axis whose record has been written. -/
theorem setAxis_silenced (s : State) (a : AxisId) (y : Axis) (code tag : Byte) (w : Work) :
    s.SilentlyEnded (((s.setAxis a y).silenceAxis a).answers code tag w) a :=
  silentlyEnded_of_same (s := s.setAxis a y) (fun _ => rfl) (fun _ => State.answers_slot _ _ _ _ _)
    (silenceAxis_silentlyEnded _ a)

end

end Sys2Proof.Machine

open Sys2Proof Sys2Proof.Machine

/-- Settles O14: the branches of the block by the state of the axis, the modulus and the change of source. -/
theorem configAxisOfAConfiguredAxis : Obligations.ConfigAxisOfAConfiguredAxis := by
  unfold Obligations.ConfigAxisOfAConfiguredAxis
  intro s tag a c l ready range x written configure switchOff answer
  have stops := stops_of_ready ready
  refine ⟨fun state => ⟨?_, ?_⟩, fun halted quiet same source => ?_, fun halted quiet same was is => ?_,
    fun halted quiet same was is => ?_, fun halted used => ⟨fun other => ?_, ?_⟩,
    fun halted unused => ⟨fun other => ?_, ?_⟩⟩
  · exact execConfigAxis_settled ready range (fun w => configAxis_stopped (s := s.answers 0x10#8 tag w) c l state) stops
  · exact execConfigAxis_off ready (switchAxisOff_stopped (s := s.answers 0x10#8 tag _) state) stops
  · have worked := execConfigAxis_keeps (l := l) ready range halted quiet same
    rwa [reconfigure_plain source] at worked
  · have worked := execConfigAxis_keeps (l := l) ready range halted quiet same
    rw [reconfigure_fromEncoder was is] at worked
    have settled := setAxis_settled (y := { x.configure c with referenced := true, corrections := 0 })
      (free_of_ready ready quiet) rfl (by show x.state ≠ .faulted; rw [halted]; exact nofun) rfl 0x10#8 tag (bare .done)
    refine ⟨worked, settled, ?_, ?_⟩
    · rw [answers_axes, State.axes_of_still (settleWindows_still _ a)]
    · rw [answers_latched, State.latched_of_still (settleWindows_still _ a)]
      rfl
  · have worked := execConfigAxis_keeps (l := l) ready range halted quiet same
    rw [reconfigure_toEncoder was is] at worked
    exact ⟨worked, setAxis_silenced s a _ _ _ _⟩
  · refine execConfigAxis_settled ready range (fun w => ?_) stops
    rw [configAxis_remodulus (s := s.answers 0x10#8 tag w) l halted other]
    exact if_pos used
  · refine execConfigAxis_off ready ?_ stops
    rw [switchAxisOff_halted (s := s.answers 0x10#8 tag _) halted]
    exact if_pos used
  · refine execConfigAxis_settled ready range (t := s.setAxis a (x.remodulused c)) (fun w => ?_) stops
    rw [configAxis_remodulus (s := s.answers 0x10#8 tag w) l halted other]
    exact if_neg (Bool.eq_false_iff.1 unused)
  · refine execConfigAxis_off ready (t := s.setAxis a x.switchedOff) ?_ stops
    rw [switchAxisOff_halted (s := s.answers 0x10#8 tag _) halted]
    exact if_neg (Bool.eq_false_iff.1 unused)

end

section
/-! SUPPORT. The entry of an axis into HALTED (R39), and HALT_AXIS (R38, R40). -/

namespace Sys2Proof.Machine

/-! ### Parts of the entry into HALTED -/

/-- The list of an axis is empty and open. -/
def State.Cleared (s : State) (a : AxisId) : Prop := (s.list a).closed = false ∧ (s.list a).items = []

theorem cleared_of_lists {s t : State} {a : AxisId} (same : t.lists = s.lists) (cleared : s.Cleared a) : t.Cleared a := by
  rw [State.Cleared, list_of_lists same]; exact cleared

theorem invertOnce_lists (s : State) (a : AxisId) (o : OutId) : (s.invertOnce a o).lists = s.lists := by
  unfold State.invertOnce
  simp only
  split <;> rfl

/-- The work on entries leaves an empty open list empty and open. -/
theorem cleared_entryKept (a : AxisId) : EntryKept (fun s => s.Cleared a) where
  slot _ _ holds := holds
  output holds _ := holds
  invert {s} b o holds := cleared_of_lists (invertOnce_lists s b o) holds
  drop {s} b h holds := by
    rw [State.Cleared, State.setList_list]
    split
    · next same =>
      subst same
      exact ⟨(drop_closed _ h).trans holds.1, by rw [drop_items, holds.2]; rfl⟩
    · exact holds
  report {s} cause b p rev holds := cleared_of_lists (reportFault_lists s cause b p rev) holds
  channel _ _ holds _ := holds

theorem releaseAxis_lists (s : State) (a : AxisId) : (s.releaseAxis a).lists = s.lists := by
  have beyond := releaseAxis_beyond s a
  simp only [State.beyondSafety, Prod.mk.injEq] at beyond
  exact beyond.2.1

theorem haltReached_lists (s : State) (a : AxisId) : (s.haltReached a).lists = s.lists := by
  unfold State.haltReached; split <;> rfl

theorem haltReached_aside (s : State) (a : AxisId) : State.Aside s (s.haltReached a) := by
  unfold State.haltReached; split
  · exact aside_of_same rfl rfl rfl rfl
  · exact .refl s

/-- In a request's own step the axis gives no outcome to another request: the port record is the request's (R39). -/
theorem haltReached_answered (s : State) (a : AxisId) (code tag : Byte) (w : Work) :
    (s.haltReached a).answers code tag w = s.answers code tag w := by
  unfold State.haltReached; split <;> rfl

theorem settleApplied_nil (s : State) (a : AxisId) : s.settleApplied a [] = s := by
  have none_ : (s.order a).filter (fun h => (s.slot h).entry?.any (fun e => e.appliedBy [] h)) = [] := by
    refine List.filter_eq_nil_iff.2 (fun h _ => ?_)
    cases (s.slot h).entry? <;> simp [Entry.appliedBy]
  unfold State.settleApplied State.settleAll
  rw [none_]
  rfl

theorem releaseAxis_of_ne {s : State} (steady : s.condition ≠ .releasing) (a : AxisId) : s.releaseAxis a = s :=
  if_neg steady

/-! ### The entry into HALTED -/

/-- A HALTING axis becomes HALTED: its record, reference and activity, before the application of its list (R39). -/
def State.halted (s : State) (a : AxisId) : State :=
  (s.setAxis a { s.axis a with state := .halted }).dropReference a

section
variable {a : AxisId} {s : State}

theorem halted_plain (other : (s.axis a).source ≠ .encoder) :
    s.halted a = s.setAxis a { s.axis a with state := .halted } := by
  unfold State.halted State.dropReference
  rw [State.setAxis_axis_self, if_neg other]

theorem halted_encoder (encoder : (s.axis a).source = .encoder) :
    s.halted a = (s.setAxis a { s.axis a with state := .halted, referenced := false }).silenceAxis a := by
  unfold State.halted State.dropReference
  rw [State.setAxis_axis_self, if_pos encoder, State.setAxis_setAxis]

/-- The record of an axis that becomes HALTED (R39). -/
def Axis.halted (x : Axis) : Axis :=
  { x with
    state := .halted
    referenced := x.referenced && x.source != .encoder
    silentDue := x.silentDue && x.source != .encoder }

theorem halted_axis_self (s : State) (a : AxisId) : (s.halted a).axis a = (s.axis a).halted := by
  by_cases encoder : (s.axis a).source = .encoder
  · rw [halted_encoder encoder, silenceAxis_axis, if_pos rfl, State.setAxis_axis_self]
    simp [Axis.halted, encoder]
  · have other : ((s.axis a).source != .encoder) = true := by simpa using encoder
    rw [halted_plain encoder, State.setAxis_axis_self]
    simp [Axis.halted, other]

theorem halted_axis_of_ne {b : AxisId} (ne : b ≠ a) : (s.halted a).axis b = s.axis b := by
  by_cases encoder : (s.axis a).source = .encoder
  · rw [halted_encoder encoder, silenceAxis_axis, if_neg (Ne.symm ne), State.setAxis_axis, if_neg (Ne.symm ne)]
  · rw [halted_plain encoder, State.setAxis_axis, if_neg (Ne.symm ne)]

theorem halted_aside (s : State) (a : AxisId) : State.Aside s (s.halted a) := by
  by_cases encoder : (s.axis a).source = .encoder
  · rw [halted_encoder encoder]
    exact State.Aside.trans (t := s.setAxis a _) (aside_of_same rfl rfl rfl rfl) (silenceAxis_aside _ a)
  · rw [halted_plain encoder]
    exact aside_of_same rfl rfl rfl rfl

theorem halted_lists (s : State) (a : AxisId) : (s.halted a).lists = s.lists := by
  by_cases encoder : (s.axis a).source = .encoder
  · rw [halted_encoder encoder, silenceAxis_lists]; rfl
  · rw [halted_plain encoder]; rfl

theorem halted_free (free : Free a s) : Free a (s.halted a) :=
  free_of_way ((dropReference_way a a _).trans (setAxis_way a a s _)) free

/-- The entry into HALTED of a free channel, part by part (R39). -/
theorem reachHalted_free (free : Free a s) : s.reachHalted a
    = ((((s.halted a).applyClosed a true).settleApplied a (s.list a).toApply).releaseAxis a).haltReached a := by
  have taken := (takeParts_free (s.halted a)
    [.application true, .settleApplied (s.list a).toApply, .release, .haltReached] (halted_free free)).1
  simp only [List.foldl_cons, List.foldl_nil, State.runPart] at taken
  exact taken

theorem settleApplied_aside (s : State) (a : AxisId) (items : List Item) : State.Aside s (s.settleApplied a items) :=
  (aside_entryKept s).takeEntries a _ (.refl s)

/-- With no closed list and no release waiting the entry into HALTED writes the record and ends the activity (R39). -/
theorem reachHalted_alone (free : Free a s) (opened : (s.list a).closed = false) (steady : s.condition ≠ .releasing) :
    s.reachHalted a = (s.halted a).haltReached a := by
  have list : ((s.halted a).list a).closed = false := by rw [list_of_lists (halted_lists s a)]; exact opened
  have none_ : (s.list a).toApply = [] := by simp [PendingList.toApply, opened]
  rw [reachHalted_free free, none_, applyClosed_open list, settleApplied_nil,
    releaseAxis_of_ne (by rw [(halted_aside s a).condition]; exact steady)]

/-- What the entry into HALTED leaves, whatever waits (R39, R125, R152). -/
structure State.HaltsTo (s : State) (a : AxisId) (t : State) : Prop where
  own : t.axis a = (s.axis a).halted
  others : ∀ b, b ≠ a → t.axis b = s.axis b
  opened : (t.list a).closed = false
  applied : (s.list a).closed = true → (t.list a).items = [] ∧ t.latched &&& reasonBatchApplied = reasonBatchApplied
  released : s.condition = .releasing → ∀ o, (s.output o).binding = some a → (t.output o).safeHold = false

theorem releaseAxis_unholds {t : State} (before : State.Aside s t) (after : State) (aside : State.Aside (t.releaseAxis a) after)
    (releasing : s.condition = .releasing) {o : OutId} (own : (s.output o).binding = some a) :
    (after.output o).safeHold = false := by
  have released := (releaseAxis_of_releasing (before.condition.trans releasing) a).of_aside before aside
  rw [released.holds, own]
  simp

theorem reachHalted_halts (free : Free a s) : s.HaltsTo a (s.reachHalted a) := by
  have lists := halted_lists s a
  let applied := (s.halted a).applyClosed a true
  let settled := applied.settleApplied a (s.list a).toApply
  have axes : (s.reachHalted a).axes = (s.halted a).axes := by
    rw [reachHalted_free free, haltReached_axes, releaseAxis_axes, State.axes_of_still (settleApplied_still a _ _),
      applyClosed_axes]
  have sameLists : (s.reachHalted a).lists = settled.lists := by
    rw [reachHalted_free free, haltReached_lists, releaseAxis_lists]
  have raises : settled.Raises (s.reachHalted a) := by
    rw [reachHalted_free free]
    exact fun r set => (haltReached_aside _ a).raises r (releaseAxis_raises _ a r set)
  have batch : (s.list a).closed = true → (s.reachHalted a).Applied a := fun closed => by
    have closed' : ((s.halted a).list a).closed = true := by rw [list_of_lists lists]; exact closed
    have did : applied.Applied a := by
      show ((s.halted a).applyClosed a true).Applied a
      rw [applyClosed_free _ true closed' (halted_free free)]
      exact endApplication_applied _ a
    have cleared : settled.Cleared a := (cleared_entryKept a).takeEntries a _ ⟨did.1, did.2.1⟩
    exact applied_of_lists sameLists raises ⟨cleared.1, cleared.2, (settleApplied_aside applied a _).raises _ did.2.2⟩
  refine ⟨?_, fun b ne => ?_, ?_, fun closed => ⟨(batch closed).2.1, (batch closed).2.2⟩, fun releasing o own => ?_⟩
  · rw [axis_of_axes axes, halted_axis_self]
  · rw [axis_of_axes axes, halted_axis_of_ne ne]
  · cases closed : (s.list a).closed with
    | true => exact (batch closed).1
    | false =>
      have opened : ((s.halted a).list a).closed = false := by rw [list_of_lists lists]; exact closed
      have kept : settled.closedLists = (s.halted a).closedLists := by
        refine (closedLists_entryKept (s.halted a).closedLists).takeEntries a _ ?_
        show (applied).closedLists = _
        rw [show applied = s.halted a from applyClosed_open opened true]
      rw [list_of_lists sameLists]
      exact (congrFun kept a).trans opened
  · have before : State.Aside s settled :=
      ((halted_aside s a).trans (applyClosed_aside _ a true)).trans (settleApplied_aside _ a _)
    refine releaseAxis_unholds before _ ?_ releasing own
    rw [reachHalted_free free]
    exact haltReached_aside _ a

end

end Sys2Proof.Machine
end

section
/-! SUPPORT. HALT_AXIS (R38, R40). -/

namespace Sys2Proof.Machine

section
variable {a : AxisId} {s t : State}

/-- A HALT_AXIS, by what its block makes of the axis. -/
theorem execHaltAxis_worked {u : State} {tag : Byte} {left done : Work} (ready : s.ReadyAlone tag)
    (worked : ∀ w, w ≠ .halting a → (s.answers 0x12#8 tag w).haltAxis a = (t.answers 0x12#8 tag w, left))
    (wentOn : t.goOn (left.inOrder []) = (u, done)) (stops : u.stops = []) :
    exec (.haltAxis ⟨frameRest 0x12#8 tag [byteOf a], .prompt⟩) s = .next (u.answers 0x12#8 tag done) :=
  congrArg Host.Outcome.next (request_worked (n := 1) rfl rfl (by decide) ready
    (by
      rw [haltAxisBlock, show axisOf (natAt [byteOf a] 0 1) = some a from axisOf_first a []]
      exact worked (.waiting [byteOf a] ⟨false, false, false⟩ .prompt) nofun) wentOn stops)

/-! ### The branches of the block -/

theorem haltAxis_halted (halted : (s.axis a).state = .halted) : s.haltAxis a = (s, bare .done) := by
  simp only [State.haltAxis, halted]

theorem haltAxis_refused (state : (s.axis a).state = .off ∨ (s.axis a).state = .halting) :
    s.haltAxis a = (s, bare .wrongState) := by
  rcases state with state | state <;> simp only [State.haltAxis, state]

/-- A RUNNING axis that is halted: its record, before counts are left or it reaches HALTED (R38). -/
def State.halting (s : State) (a : AxisId) : State := s.setAxis a { s.axis a with state := .halting, remainder := 0 }

theorem haltAxis_running_left (running : (s.axis a).state = .running) (quiet : s.busy a = false)
    (left : (s.axis a).backlog ≠ 0) : s.haltAxis a = (s.halting a, .halting a) := by
  have empty : (s.channel a).rest = [] := by simpa [State.busy] using quiet
  simp only [State.haltAxis, running, finish_quiet empty, left, if_false]
  rfl

theorem haltAxis_running_done (running : (s.axis a).state = .running) (quiet : s.busy a = false)
    (none_ : (s.axis a).backlog = 0) : s.haltAxis a = ((s.halting a).reachHalted a).served a := by
  have empty : (s.channel a).rest = [] := by simpa [State.busy] using quiet
  simp only [State.haltAxis, running, finish_quiet empty, State.halting]
  rw [if_pos none_]

theorem haltAxis_faulted (faulted : (s.axis a).state = .faulted) : s.haltAxis a = (s.haltFaulted a).served a := by
  simp only [State.haltAxis, faulted]

theorem halting_axis_self (s : State) (a : AxisId) :
    (s.halting a).axis a = { s.axis a with state := .halting, remainder := 0 } := State.setAxis_axis_self s a _

theorem halting_axis_of_ne {b : AxisId} (ne : b ≠ a) : (s.halting a).axis b = s.axis b := by
  rw [State.halting, State.setAxis_axis, if_neg (Ne.symm ne)]

theorem halting_free (free : Free a s) : Free a (s.halting a) := free

/-- The entry into HALTED goes the same way behind the port record of a request (R39). -/
theorem reachHalted_blindTo {w : Work} (noHalt : w ≠ .halting a) (state : (s.axis a).state = .halting)
    (none_ : (s.axis a).backlog = 0) (code tag : Byte) :
    (s.answers code tag w).reachHalted a = (s.reachHalted a).answers code tag w := by
  have blind : (s.answers code tag w).haltIfDone a = (s.haltIfDone a).answers code tag w :=
    haltIfDone_blindTo a noHalt s code tag
  have done (u : State) (record : u.axis a = s.axis a) : u.haltIfDone a = u.reachHalted a := by
    unfold State.haltIfDone
    rw [record, if_pos ⟨state, none_⟩]
  rwa [done _ (State.answers_axis s code tag w a), done s rfl] at blind

theorem reachHalted_free_after (free : Free a s) : Free a (s.reachHalted a) :=
  (takeParts_free (s.halted a) _ (halted_free free)).2

/-- HALT_AXIS of a RUNNING axis with no count left (R38, R39). -/
theorem execHaltAxis_reaches {tag : Byte} (ready : s.ReadyAlone tag) (running : (s.axis a).state = .running)
    (none_ : (s.axis a).backlog = 0) (quiet : s.busy a = false) :
    exec (.haltAxis ⟨frameRest 0x12#8 tag [byteOf a], .prompt⟩) s
      = .next (((s.halting a).reachHalted a).answers 0x12#8 tag (bare .done)) := by
  have free := reachHalted_free_after (halting_free (free_of_ready ready quiet))
  refine execHaltAxis_worked ready (fun w noHalt => ?_) (goOn_served free) (stops_of_free free)
  have blind := reachHalted_blindTo (s := s.halting a) noHalt (by rw [halting_axis_self])
    (by rw [halting_axis_self]; exact none_) 0x12#8 tag
  rw [haltAxis_running_done (s := s.answers 0x12#8 tag w) running quiet none_]
  have same : (s.answers 0x12#8 tag w).halting a = (s.halting a).answers 0x12#8 tag w := rfl
  rw [same, blind]
  exact served_of_free (free_answers 0x12#8 tag w free)

/-! ### A FAULTED axis -/

theorem takeSilentDue_answers (s : State) (a : AxisId) (code tag : Byte) (w : Work) :
    (s.answers code tag w).takeSilentDue a = (s.takeSilentDue a).answers code tag w := by
  unfold State.takeSilentDue
  rw [State.answers_axis]
  split
  · exact silenceAxis_answers a s code tag w
  · rfl

/-- A FAULTED axis that is halted, before the release is handed over (R40). -/
def State.settledHalt (s : State) (a : AxisId) : State :=
  ((s.takeSilentDue a).setAxis a { (s.takeSilentDue a).axis a with state := .halted }).settleWindows a

theorem takeSilentDue_free (free : Free a s) : Free a (s.takeSilentDue a) := by
  unfold State.takeSilentDue; split
  · exact free_of_way (silenceAxis_way a a s) free
  · exact free

theorem settledHalt_free (free : Free a s) : Free a (s.settledHalt a) :=
  (takeEntries_free _ _ (free_of_way (setAxis_way a a _ _) (takeSilentDue_free free))).2

theorem haltFaulted_free (free : Free a s) :
    s.haltFaulted a = (s.settledHalt a).releaseAxis a ∧ Free a (s.haltFaulted a) := by
  have taken := takeParts_free (s.settledHalt a) [.release] (settledHalt_free free)
  have same : s.haltFaulted a = (s.settledHalt a).takeParts a [.release] := by
    unfold State.haltFaulted
    rw [finish_quiet ((free_iff a s).1 free).2]
    rfl
  rw [same]
  refine ⟨taken.1.trans ?_, taken.2⟩
  simp only [List.foldl_cons, List.foldl_nil, State.runPart]

theorem haltFaulted_answers {w : Work} (free : Free a s) (code tag : Byte) :
    (s.answers code tag w).haltFaulted a = (s.haltFaulted a).answers code tag w := by
  have settled : (s.answers code tag w).settledHalt a = (s.settledHalt a).answers code tag w := by
    unfold State.settledHalt
    rw [takeSilentDue_answers]
    exact settleWindows_answers a ((s.takeSilentDue a).setAxis a _) code tag w
  rw [(haltFaulted_free free).1, (haltFaulted_free (free_answers code tag w free)).1, settled]
  exact releaseAxis_answers a (s.settledHalt a) code tag w

theorem execHaltAxis_faulted {tag : Byte} (ready : s.ReadyAlone tag) (faulted : (s.axis a).state = .faulted)
    (quiet : s.busy a = false) : exec (.haltAxis ⟨frameRest 0x12#8 tag [byteOf a], .prompt⟩) s
      = .next ((s.haltFaulted a).answers 0x12#8 tag (bare .done)) := by
  have free := free_of_ready ready quiet
  have after := (haltFaulted_free free).2
  refine execHaltAxis_worked ready (fun w _ => ?_) (goOn_served after) (stops_of_free after)
  rw [haltAxis_faulted (s := s.answers 0x12#8 tag w) faulted, haltFaulted_answers free]
  exact served_of_free (free_answers 0x12#8 tag w after)

theorem takeSilentDue_aside (s : State) (a : AxisId) : State.Aside s (s.takeSilentDue a) := by
  unfold State.takeSilentDue; split
  · exact silenceAxis_aside s a
  · exact .refl s

theorem settledHalt_aside (s : State) (a : AxisId) : State.Aside s (s.settledHalt a) := by
  have taken := takeSilentDue_aside s a
  have written : State.Aside (s.takeSilentDue a)
      ((s.takeSilentDue a).setAxis a { (s.takeSilentDue a).axis a with state := .halted }) := aside_of_same rfl rfl rfl rfl
  exact (taken.trans written).trans ((aside_entryKept _).takeEntries a _ (.refl _))

theorem takeSilentDue_axis_of_ne {b : AxisId} (ne : b ≠ a) : (s.takeSilentDue a).axis b = s.axis b := by
  unfold State.takeSilentDue; split
  · rw [silenceAxis_axis, if_neg (Ne.symm ne)]
  · rfl

theorem settledHalt_axes (s : State) (a : AxisId) : (s.settledHalt a).axes
    = ((s.takeSilentDue a).setAxis a { (s.takeSilentDue a).axis a with state := .halted }).axes :=
  State.axes_of_still (settleWindows_still _ a)

theorem settledHalt_steady (steady : s.condition ≠ .releasing) : (s.settledHalt a).releaseAxis a = s.settledHalt a :=
  releaseAxis_of_ne (by rw [(settledHalt_aside s a).condition]; exact steady) a

theorem takeSilentDue_of_not (done : (s.axis a).silentDue = false) : s.takeSilentDue a = s := by
  unfold State.takeSilentDue
  rw [if_neg (by simp [done])]

end

end Sys2Proof.Machine

open Sys2Proof Sys2Proof.Machine

/-- Settles O15: the branches of the block by the state of the axis, and what the entry into HALTED leaves. -/
theorem haltAxisByState : Obligations.HaltAxisByState := by
  unfold Obligations.HaltAxisByState
  intro s tag a ready x halt answer
  have stops := stops_of_ready ready
  refine ⟨fun running quiet left => ?_, fun running quiet none_ opened steady => ⟨fun other => ?_, fun encoder => ?_⟩,
    fun faulted quiet done steady => ?_, fun state quiet => ?_, fun halted => ?_, fun state => ?_⟩
  · exact execHaltAxis_worked ready (t := s.halting a)
      (fun w _ => haltAxis_running_left (s := s.answers 0x12#8 tag w) running quiet left) rfl stops
  · have reaches := execHaltAxis_reaches ready running none_ quiet
    have list : ((s.halting a).list a).closed = false := opened
    rw [reachHalted_alone (halting_free (free_of_ready ready quiet)) list steady, haltReached_answered,
      halted_plain (by rw [halting_axis_self]; exact other), halting_axis_self, State.halting, State.setAxis_setAxis] at reaches
    exact reaches
  · have reaches := execHaltAxis_reaches ready running none_ quiet
    have list : ((s.halting a).list a).closed = false := opened
    rw [reachHalted_alone (halting_free (free_of_ready ready quiet)) list steady, haltReached_answered,
      halted_encoder (by rw [halting_axis_self]; exact encoder), halting_axis_self, State.halting,
      State.setAxis_setAxis] at reaches
    exact ⟨reaches, setAxis_silenced s a _ _ _ _⟩
  · have free := free_of_ready ready quiet
    have halts := execHaltAxis_faulted ready faulted quiet
    rw [(haltFaulted_free free).1, settledHalt_steady steady, State.settledHalt, takeSilentDue_of_not done] at halts
    have record : (s.setAxis a { x with state := .halted }).axis a = { x with state := .halted } :=
      State.setAxis_axis_self s a _
    refine ⟨halts, ?_, ?_, fun referenced => ?_, fun unreferenced h => ?_⟩
    · exact (answers_axes _ _ _ _).trans (State.axes_of_still (settleWindows_still _ a))
    · rw [answers_latched, State.latched_of_still (settleWindows_still _ a)]
      rfl
    · exact setAxis_settled (y := { x with state := .halted }) free referenced nofun rfl 0x12#8 tag (bare .done)
    · rw [State.answers_slot]
      exact settleWindows_slot_unjudged (s := s.setAxis a { x with state := .halted })
        (.inl (by rw [record]; exact unreferenced)) (free_of_way (setAxis_way a a s _) free) h
  · have free := free_of_ready ready quiet
    rcases state with ⟨running, none_⟩ | faulted
    · have halts := reachHalted_halts (halting_free free)
      refine ⟨_, execHaltAxis_reaches ready running none_ quiet, ?_, answers_port _ _ _ _ _, fun b ne => ?_,
        fun _ => ⟨?_, fun closed => ?_⟩, fun releasing o own => ?_⟩
      · rw [State.answers_axis, halts.own]; rfl
      · rw [State.answers_axis, halts.others b ne, halting_axis_of_ne ne]
      · rw [State.answers_list]; exact halts.opened
      · rw [State.answers_list, answers_latched]; exact halts.applied closed
      · rw [State.answers_output]; exact halts.released releasing o own
    · refine ⟨_, execHaltAxis_faulted ready faulted quiet, ?_, answers_port _ _ _ _ _, fun b ne => ?_,
        fun running => ?_, fun releasing o own => ?_⟩
      · rw [State.answers_axis, (haltFaulted_free free).1, axis_of_axes (releaseAxis_axes _ a),
          axis_of_axes (settledHalt_axes s a), State.setAxis_axis_self]
      · rw [State.answers_axis, (haltFaulted_free free).1, axis_of_axes (releaseAxis_axes _ a),
          axis_of_axes (settledHalt_axes s a), State.setAxis_axis, if_neg (Ne.symm ne), takeSilentDue_axis_of_ne ne]
      · rw [show x.state = .faulted from faulted] at running; cases running
      · rw [State.answers_output, (haltFaulted_free free).1]
        exact releaseAxis_unholds (settledHalt_aside s a) _ (.refl _) releasing own
  · exact execHaltAxis_worked ready (t := s) (fun w _ => haltAxis_halted (s := s.answers 0x12#8 tag w) halted) rfl stops
  · exact execHaltAxis_worked ready (t := s) (fun w _ => haltAxis_refused (s := s.answers 0x12#8 tag w) state) rfl stops

end

section
/-! SUPPORT. The stages of a step (R58), and what a step makes of the axis records (R51, R60, R62). -/

namespace Sys2Proof.Machine

/-! ### The plan of a step -/

section
variable {x : Axis}

theorem plan_dir (x : Axis) : x.plan.dir = x.stepDir := by
  unfold Axis.plan Axis.stepDir; split <;> rfl

/-- A step crosses the wrap point where the statements say so (R60). -/
theorem plan_wrap_iff (inside : x.position < x.modulus) : x.plan.wrap = true ↔ x.Wraps := by
  unfold Axis.plan Axis.Wraps
  split
  · simp only [decide_eq_true_eq]; omega
  · simp

theorem plan_point (inside : x.position < x.modulus) : x.plan.point = x.stepPoint := by
  unfold Axis.plan Axis.stepPoint
  split
  · simp only
    split <;> split <;> omega
  · rfl

/-- The signed count that a step takes. -/
def Axis.unit (x : Axis) : Int := if 0 < x.backlog then 1 else -1

/-- The new position is one count on, modulo the modulus (R51, R62). -/
theorem plan_newPosition (inside : x.position < x.modulus) :
    x.plan.newPosition = (((x.position : Int) + x.unit) % (x.modulus : Int)).toNat := by
  unfold Axis.plan Axis.unit
  split
  · simp only
    split
    · rw [Int.emod_eq_of_lt (by omega) (by omega)]; omega
    · have wrapped : (x.position : Int) + 1 = x.modulus := by omega
      rw [wrapped, Int.emod_self]; rfl
  · simp only
    split
    · next zero =>
      have wrapped : (x.position : Int) + -1 = -1 := by omega
      rw [wrapped, ← Int.add_emod_right, Int.emod_eq_of_lt (by omega) (by omega)]
      omega
    · rw [Int.emod_eq_of_lt (by omega) (by omega)]; omega

theorem advance_eq (inside : x.position < x.modulus) : x.advance = { x with
    position := (((x.position : Int) + x.unit) % (x.modulus : Int)).toNat
    backlog := x.backlog - x.unit } := by
  rw [Axis.advance, plan_newPosition inside]
  unfold Axis.unit
  split <;> rfl

/-- The position part leaves the tracked position (R62). -/
theorem advance_tracked (inside : x.position < x.modulus) : x.advance.tracked = x.tracked := by
  rw [advance_eq inside]
  unfold Axis.tracked wrapTo
  have nonneg : 0 ≤ ((x.position : Int) + x.unit) % (x.modulus : Int) := Int.emod_nonneg _ (by omega)
  show ((((((x.position : Int) + x.unit) % (x.modulus : Int)).toNat : Int) + (x.backlog - x.unit)) % (x.modulus : Int)).toNat
    = (((x.position : Int) + x.backlog) % (x.modulus : Int)).toNat
  rw [Int.toNat_of_nonneg nonneg, Int.emod_add_emod]
  congr 2
  ring

end

/-! ### The stages of a step -/

/-- After the beginning of the wrap part (R60). -/
def State.begun (s : State) (a : AxisId) : State :=
  if (s.axis a).plan.wrap then s.beginWrap a (s.axis a).plan.dir else s

/-- After the wrap part: the list has been applied, and the outputs of the axis released (R60). -/
def State.wrapped (s : State) (a : AxisId) : State :=
  if (s.axis a).plan.wrap then ((s.begun a).applyClosed a true).releaseAxis a else s.begun a

/-- After the position part (R62). -/
def State.advanced (s : State) (a : AxisId) : State := (s.wrapped a).advance a

/-- After parts 3 and 4 (R63, R68). -/
def State.crossed (s : State) (a : AxisId) : State :=
  if (s.axis a).referenced then
    ((s.advanced a).crossings a (s.axis a).plan.point (s.axis a).plan.dir).boundaries a (s.axis a).plan.point
      (s.axis a).plan.dir
  else s.advanced a

/-- After the settle of the applied entries (R60, R74). -/
def State.settled (s : State) (a : AxisId) : State :=
  if (s.axis a).referenced && (s.axis a).plan.wrap then (s.crossed a).settleApplied a (s.list a).toApply else s.crossed a

/-- After the whole step (R58). -/
def State.stepped (s : State) (a : AxisId) : State := (s.settled a).haltIfDone a

section
variable {s : State} {a : AxisId}

theorem foldl_stepTasks (x : Axis) (items : List Item) (u : State) :
    (x.stepTasks items).foldl (State.run a) u =
      let w := if x.plan.wrap then (u.applyClosed a true).releaseAxis a else u
      let p := w.advance a
      let c := if x.referenced then (p.crossings a x.plan.point x.plan.dir).boundaries a x.plan.point x.plan.dir else p
      let d := if x.referenced && x.plan.wrap then c.settleApplied a items else c
      d.haltIfDone a := by
  unfold Axis.stepTasks
  cases x.plan.wrap <;> cases x.referenced <;>
    simp only [Bool.false_eq_true, if_true, if_false, Bool.and_self, Bool.and_true, Bool.and_false, List.foldl_append,
      List.foldl_cons, List.foldl_nil, State.run, State.runPart]

theorem begun_free (free : Free a s) : Free a (s.begun a) := by
  unfold State.begun; split
  · exact free_of_way (by
      simp [State.beginWrap, foldl_keeps (State.way a) State.clearSpent (clearSpent_way a)]) free
  · exact free

theorem beginStep_free (free : Free a s) : s.beginStep a = s.stepped a := by
  refine (take_free (s.begun a) ((s.axis a).stepTasks (s.list a).toApply) (begun_free free)).1.trans ?_
  rw [foldl_stepTasks]
  rfl

/-- A step of a channel without work in progress, none of whose work stops (R58). -/
theorem execStep_quiet (quiet : s.busy a = false) (stepping : (s.axis a).stepping = true)
    (counts : (s.axis a).backlog ≠ 0) :
    exec (.step ⟨a, []⟩) s = .next (((s.ahead []).stepped a).ahead s.stops) := by
  have free : Free a (s.ahead []) := (free_iff a _).2 ⟨rfl, (by simpa [State.busy] using quiet : (s.channel a).rest = [])⟩
  show execStep ⟨a, []⟩ s = _
  simp only [execStep, quiet, Bool.false_eq_true, if_false]
  rw [if_pos ⟨stepping, counts⟩, ← beginStep_free free]
  rfl

/-! ### The axis records through a step -/

theorem foldl_clearSpent_still (hs : List Nat) (s : State) : (hs.foldl State.clearSpent s).still = s.still :=
  foldl_keeps State.still _ clearSpent_still hs s

/-- The record of the axis after the wrap part: its revolution count (R60). -/
def Axis.turned (x : Axis) : Axis := if x.plan.wrap then x.wrapRevolution x.plan.dir else x

theorem begun_axes (s : State) (a : AxisId) : (s.begun a).axes = (s.setAxis a (s.axis a).turned).axes := by
  unfold State.begun Axis.turned
  split
  · exact State.axes_of_still (foldl_clearSpent_still _ _)
  · rw [State.setAxis_self]

theorem wrapped_axes (s : State) (a : AxisId) : (s.wrapped a).axes = (s.begun a).axes := by
  unfold State.wrapped
  split
  · rw [releaseAxis_axes, applyClosed_axes]
  · rfl

theorem wrapped_axis_self (s : State) (a : AxisId) : (s.wrapped a).axis a = (s.axis a).turned := by
  rw [axis_of_axes (wrapped_axes s a), axis_of_axes (begun_axes s a), State.setAxis_axis_self]

theorem wrapped_axis_of_ne {b : AxisId} (ne : b ≠ a) : (s.wrapped a).axis b = s.axis b := by
  rw [axis_of_axes (wrapped_axes s a), axis_of_axes (begun_axes s a), State.setAxis_axis, if_neg (Ne.symm ne)]

theorem turned_fields (x : Axis) : x.turned = { x with revolution := x.turned.revolution } := by
  unfold Axis.turned Axis.wrapRevolution; split <;> rfl

theorem advanced_eq (stepping : (s.axis a).stepping = true) (counts : (s.axis a).backlog ≠ 0) :
    s.advanced a = (s.wrapped a).setAxis a ((s.wrapped a).axis a).advance := by
  have record := wrapped_axis_self s a
  rw [turned_fields] at record
  unfold State.advanced State.advance
  rw [if_pos (by rw [record]; exact ⟨stepping, counts⟩)]

theorem advanced_axis_self (stepping : (s.axis a).stepping = true) (counts : (s.axis a).backlog ≠ 0) :
    (s.advanced a).axis a = (s.axis a).turned.advance := by
  rw [advanced_eq stepping counts, State.setAxis_axis_self, wrapped_axis_self]

theorem advanced_axis_of_ne {b : AxisId} (ne : b ≠ a) : (s.advanced a).axis b = s.axis b :=
  ((advance_worked a (s.wrapped a)).others b ne).trans (wrapped_axis_of_ne ne)

theorem crossed_still (s : State) (a : AxisId) : (s.crossed a).still = (s.advanced a).still := by
  unfold State.crossed; split
  · exact (boundaries_still a _ _ _).trans (crossings_still a _ _ _)
  · rfl

theorem settled_still (s : State) (a : AxisId) : (s.settled a).still = (s.advanced a).still := by
  unfold State.settled; split
  · exact (settleApplied_still a _ _).trans (crossed_still s a)
  · exact crossed_still s a

/-- The step does not end a halt (R39). -/
theorem stepped_of_left (left : ¬ (((s.advanced a).axis a).state = .halting ∧ ((s.advanced a).axis a).backlog = 0)) :
    s.stepped a = s.settled a := by
  unfold State.stepped State.haltIfDone
  rw [State.axis_of_still (settled_still s a), if_neg left]

theorem turned_advance_eq (x : Axis) (inside : x.position < x.modulus) : x.turned.advance = { x with
    position := (((x.position : Int) + x.unit) % (x.modulus : Int)).toNat
    backlog := x.backlog - x.unit
    revolution := x.turned.revolution } := by
  have fields := turned_fields x
  have plan : x.turned.plan = x.plan := by rw [fields]; rfl
  have unit : x.turned.unit = x.unit := by rw [fields]; rfl
  have inside' : x.turned.position < x.turned.modulus := by rw [fields]; exact inside
  rw [advance_eq inside', unit, fields]

/-- The revolution count moves on a wrap alone (R60). -/
theorem turned_revolution {x : Axis} (inside : x.position < x.modulus) : x.turned.revolution = x.stepRevolution := by
  have wraps := plan_wrap_iff inside
  unfold Axis.turned Axis.stepRevolution
  by_cases wrap : x.plan.wrap = true
  · rw [if_pos wrap, if_pos (wraps.1 wrap), plan_dir]
    unfold Axis.wrapRevolution Axis.stepDir
    split <;> rfl
  · rw [if_neg wrap, if_neg (fun h => wrap (wraps.2 h))]

theorem stepping_of_steps {x : Axis} (steps : x.Steps) : x.stepping = true := by
  rcases steps.2.1 with running | ⟨halting, -⟩
  · simp [Axis.stepping, running]
  · simp [Axis.stepping, halting]

/-- An axis that steps without an end of its halt. -/
theorem steps_left {x : Axis} (steps : x.Steps) :
    ¬ (x.turned.advance.state = .halting ∧ x.turned.advance.backlog = 0) := by
  obtain ⟨counts, state, inside⟩ := steps
  rw [turned_advance_eq x inside]
  rintro ⟨halting, none_⟩
  have unit : x.backlog - x.unit = 0 := none_
  rcases state with running | ⟨-, two⟩
  · rw [show x.state = .halting from halting] at running; cases running
  · unfold Axis.unit at unit
    split at unit <;> omega

theorem stepped_of_steps (steps : (s.axis a).Steps) : s.stepped a = s.settled a :=
  stepped_of_left (by rw [advanced_axis_self (stepping_of_steps steps) steps.1]; exact steps_left steps)

end

end Sys2Proof.Machine

open Sys2Proof Sys2Proof.Machine

/-- Settles O23: through the stages of a step the wrap part writes the revolution count, the position part the position and
the backlog, and the rest no axis record. -/
theorem stepMovesTheAxis : Obligations.StepMovesTheAxis := by
  unfold Obligations.StepMovesTheAxis
  intro s a x m d quiet steps
  have inside : x.position < x.modulus := steps.2.2
  refine ⟨_, execStep_quiet quiet (stepping_of_steps steps) steps.1, ?_⟩
  have same : (s.ahead []).stepped a = (s.ahead []).settled a := stepped_of_steps steps
  have record : ((((s.ahead []).stepped a).ahead s.stops).axis a) = x.turned.advance := by
    rw [ahead_axis, same, State.axis_of_still (settled_still _ a)]
    exact advanced_axis_self (s := s.ahead []) (stepping_of_steps steps) steps.1
  refine ⟨?_, ?_, fun b ne => ?_⟩
  · rw [record, turned_advance_eq x inside, turned_revolution inside]
    have revolution : x.stepRevolution = if d = 1 ∧ x.position + 1 = x.modulus then x.revolution + 1#16
        else if d = -1 ∧ x.position = 0 then x.revolution - 1#16 else x.revolution := by
      simp only [Axis.stepRevolution, Axis.Wraps, d]
      by_cases forward : 0 < x.backlog <;> simp [forward]
    rw [revolution]
    rfl
  · have fields := turned_fields x
    rw [record, advance_tracked (by rw [fields]; exact inside), fields]
    rfl
  · rw [ahead_axis, same, State.axis_of_still (settled_still _ a)]
    exact advanced_axis_of_ne (s := s.ahead []) ne

end

section
/-! SUPPORT. The application of a list, item by item: what it makes of one slot and of one lead (R120 to R124). -/

namespace Sys2Proof.Machine

/-! ### One item -/

/-- What the fence of a slot leaves in it (R84). -/
def Slot.onFence (v : Slot) : Slot :=
  match v.toFence with
  | some (e, _, log) => .fenced e false log
  | none => v

/-- What an item that names slot `h` makes of the consistent entry there (R121 to R123). -/
def Item.writes : Item → Slot → Slot
  | .place _, .staged e _ => .live e true Run.fresh
  | .alter _ v, .live e _ r => .live (v.writeTo e) true { activity := .idle, spent := false, log := r.log }
  | .retire _, .live e ok r => retiredSlot e ok r.log
  | _, v => v

/-- Whether an item is a SET_LEAD of the output of the LIVE entry in a slot. -/
def Item.hushes : Item → Slot → Bool
  | .setLead o _, v => v.liveWith (Entry.targets o)
  | _, _ => false

theorem hushes_of_handle {i : Item} {k : Nat} (handle : i.handle? = some k) (v : Slot) : i.hushes v = false := by
  cases i with
  | setLead o lead => cases handle
  | _ => rfl

theorem hushes_of_notLive {v : Slot} (i : Item) (notLive : ∀ p, v.liveWith p = false) : i.hushes v = false := by
  cases i with
  | setLead o lead => exact notLive _
  | _ => rfl

/-- What the application of an item makes of slot `h` (R120). -/
def Slot.afterItem (h : Nat) (v : Slot) (i : Item) : Slot :=
  if i.names h then (if v.failsCheck then v.onFence else i.writes v)
  else if i.hushes v then v.silenced else v

section
variable {s : State} {a : AxisId} {h : Nat}

theorem fenceFrom_slot_self (a : AxisId) (s : State) (h : Nat) : (s.fenceFrom a h).slot h = (s.slot h).onFence := by
  rw [fenceFrom_slot, beginFence_slot]
  unfold Slot.onFence
  cases (s.slot h).toFence with
  | none => rfl
  | some p => simp only [if_true]

theorem applyPlace_slot_self (s : State) (h : Nat) : (s.applyPlace h).slot h = (Item.place h).writes (s.slot h) := by
  unfold State.applyPlace
  cases v : s.slot h with
  | staged e ok => exact State.setSlot_slot_self _ _ _
  | _ => exact v

theorem applyPlace_slot_ne (s : State) {h k : Nat} (ne : k ≠ h) : (s.applyPlace k).slot h = s.slot h := by
  unfold State.applyPlace
  split
  · rw [State.setSlot_slot_ne _ _ ne, takeHandings_slot_ne s ne]
  · rfl

theorem applyAlter_slot_self (s : State) (h : Nat) (v : AlterValues) :
    (s.applyAlter h v).slot h = (Item.alter h v).writes (s.slot h) := by
  unfold State.applyAlter
  cases held : s.slot h with
  | live e ok r => exact State.setSlot_slot_self _ _ _
  | _ => exact held

theorem applyAlter_slot_ne (s : State) {h k : Nat} (v : AlterValues) (ne : k ≠ h) :
    (s.applyAlter k v).slot h = s.slot h := by
  unfold State.applyAlter
  split
  · rw [State.setSlot_slot_ne _ _ ne, endActivity_slot, if_neg ne]
  · rfl

theorem applyRetire_slot_self (s : State) (h : Nat) :
    (s.applyRetire h).slot h = (Item.retire h).writes (s.slot h) := by
  unfold State.applyRetire
  cases held : s.slot h with
  | live e ok r => exact State.setSlot_slot_self _ _ _
  | _ => exact held

theorem applyRetire_slot_ne (s : State) {h k : Nat} (ne : k ≠ h) : (s.applyRetire k).slot h = s.slot h := by
  unfold State.applyRetire
  split
  · rw [State.setSlot_slot_ne _ _ ne, endActivity_slot, if_neg ne]
  · rfl

theorem applyLead_slot (s : State) (o : OutId) (lead : Int) (below : h < Config.slotCount) :
    (s.applyLead o lead).slot h
      = if (s.slot h).liveWith (Entry.targets o) then (s.slot h).silenced else s.slot h := by
  have ended := foldl_endActivity_slot (s.liveOn o) s h
  have listed : h ∈ s.liveOn o ↔ (s.slot h).liveWith (Entry.targets o) = true := by
    simp [State.liveOn, mem_handles, below]
  simp only [listed] at ended
  unfold State.applyLead
  generalize (s.liveOn o).foldl State.endActivity s = t at ended
  exact ended

/-- The application of an item to consistent entries, slot by slot (R121 to R124). -/
theorem applyItem_slot (s : State) (i : Item) (below : h < Config.slotCount) : (s.applyItem i).slot h
    = if i.names h then i.writes (s.slot h) else if i.hushes (s.slot h) then (s.slot h).silenced else s.slot h := by
  cases i with
  | place k =>
    by_cases same : k = h
    · subst same; simpa [State.applyItem, Item.names, Item.handle?] using applyPlace_slot_self s k
    · simpa [State.applyItem, Item.names, Item.handle?, Item.hushes, same] using applyPlace_slot_ne s same
  | alter k v =>
    by_cases same : k = h
    · subst same; simpa [State.applyItem, Item.names, Item.handle?] using applyAlter_slot_self s k v
    · simpa [State.applyItem, Item.names, Item.handle?, Item.hushes, same] using applyAlter_slot_ne s v same
  | retire k =>
    by_cases same : k = h
    · subst same; simpa [State.applyItem, Item.names, Item.handle?] using applyRetire_slot_self s k
    · simpa [State.applyItem, Item.names, Item.handle?, Item.hushes, same] using applyRetire_slot_ne s same
  | setLead o lead =>
    rw [if_neg (by simp [Item.names, Item.handle?])]
    exact applyLead_slot s o lead below

/-- The items of a list after the first of them (R120). -/
theorem applyNext_items {i : Item} {more : List Item} (items : (s.list a).items = i :: more) :
    ((s.applyNext a).list a).items = more := by
  simp only [State.applyNext, items]
  split
  · rw [State.setList_list_self]
  · rw [list_of_lists (applyItem_lists _ i), State.setList_list_self]

/-- What the next item of a list makes of a slot (R120). -/
theorem applyNext_slot {i : Item} {more : List Item} (items : (s.list a).items = i :: more)
    (below : h < Config.slotCount) : (s.applyNext a).slot h = (s.slot h).afterItem h i := by
  simp only [State.applyNext, items]
  unfold Slot.afterItem
  by_cases fails : s.itemFails i = true
  · rw [if_pos fails, State.setList_slot]
    unfold State.itemFails at fails
    cases handle : i.handle? with
    | none => rw [handle] at fails; cases fails
    | some k =>
      have fails' : (s.slot k).failsCheck = true := by simpa [handle] using fails
      have hushes := hushes_of_handle handle (s.slot h)
      by_cases same : k = h
      · subst same
        simp [Item.names, handle, fails', fenceFrom_slot_self]
      · simp [Item.names, handle, same, hushes, fenceFrom_slot_ne a s same]
  · rw [if_neg fails, applyItem_slot _ i below, State.setList_slot]
    by_cases names : i.names h = true
    · have consistent : (s.slot h).failsCheck = false := by
        have handle : i.handle? = some h := by simpa [Item.names] using names
        simpa [State.itemFails, handle] using fails
      simp [names, consistent]
    · simp [names]

/-- The lead of an output after an item (R124). -/
def Item.leadAfter (o : OutId) (v : Int) : Item → Int
  | .setLead p lead => if p = o then lead else v
  | _ => v

theorem foldl_endActivity_fittings (hs : List Nat) (s : State) : (hs.foldl State.endActivity s).fittings = s.fittings :=
  foldl_keeps State.fittings _ endActivity_fittings hs s

theorem applyItem_lead (s : State) (i : Item) (o : OutId) :
    ((s.applyItem i).output o).lead = i.leadAfter o (s.output o).lead := by
  cases i with
  | place h =>
    simp only [State.applyItem, State.applyPlace]; split
    · rw [State.setSlot_output]
      exact lead_of_fittings ((fittings_entryKept s.fittings).takeHandings h rfl) o
    · rfl
  | alter h v =>
    simp only [State.applyItem, State.applyAlter]; split
    · rw [State.setSlot_output]
      exact lead_of_fittings (endActivity_fittings s h) o
    · rfl
  | retire h =>
    simp only [State.applyItem, State.applyRetire]; split
    · rw [State.setSlot_output]
      exact lead_of_fittings (endActivity_fittings s h) o
    · rfl
  | setLead p lead =>
    have kept := foldl_endActivity_fittings (s.liveOn p) s
    simp only [State.applyItem, State.applyLead, Item.leadAfter]
    generalize (s.liveOn p).foldl State.endActivity s = t at kept
    rw [State.setOutput_output]
    split
    · rfl
    · exact lead_of_fittings kept o

theorem applyNext_lead {i : Item} {more : List Item} (items : (s.list a).items = i :: more) (o : OutId) :
    ((s.applyNext a).output o).lead = i.leadAfter o (s.output o).lead := by
  simp only [State.applyNext, items]
  by_cases fails : s.itemFails i = true
  · rw [if_pos fails, State.setList_output]
    unfold State.itemFails at fails
    cases i with
    | setLead p lead => cases fails
    | place h => exact lead_of_fittings (fenceFrom_fittings a s h) o
    | alter h v => exact lead_of_fittings (fenceFrom_fittings a s h) o
    | retire h => exact lead_of_fittings (fenceFrom_fittings a s h) o
  · rw [if_neg fails, applyItem_lead, State.setList_output]

/-! ### The whole list -/

theorem applyItems_slot (below : h < Config.slotCount) (xs : List Item) (items : (s.list a).items = xs) :
    (xs.foldl (fun t _ => t.applyNext a) s).slot h = xs.foldl (Slot.afterItem h) (s.slot h) := by
  induction xs generalizing s with
  | nil => rfl
  | cons i more ih => rw [List.foldl_cons, List.foldl_cons, ih (applyNext_items items), applyNext_slot items below]

theorem applyItems_lead (o : OutId) (xs : List Item) (items : (s.list a).items = xs) :
    ((xs.foldl (fun t _ => t.applyNext a) s).output o).lead = xs.foldl (Item.leadAfter o) (s.output o).lead := by
  induction xs generalizing s with
  | nil => rfl
  | cons i more ih => rw [List.foldl_cons, List.foldl_cons, ih (applyNext_items items), applyNext_lead items]

theorem endApplication_slot (s : State) (a : AxisId) (announced : Bool) (k : Nat) :
    (s.endApplication a announced).slot k = s.slot k := by
  unfold State.endApplication
  simp only
  split <;> rfl

theorem endApplication_output (s : State) (a : AxisId) (announced : Bool) (o : OutId) :
    (s.endApplication a announced).output o = s.output o := by
  unfold State.endApplication
  simp only
  split <;> rfl

/-- What a free channel makes of a slot by applying its closed list: what its items make of it, in list order (R120). -/
theorem applyClosed_slot (free : Free a s) (closed : (s.list a).closed = true) (announced : Bool)
    (below : h < Config.slotCount) :
    (s.applyClosed a announced).slot h = (s.list a).items.foldl (Slot.afterItem h) (s.slot h) := by
  rw [applyClosed_free s announced closed free, endApplication_slot, applyItems_slot below _ rfl]

theorem applyClosed_lead (free : Free a s) (closed : (s.list a).closed = true) (announced : Bool) (o : OutId) :
    ((s.applyClosed a announced).output o).lead = (s.list a).items.foldl (Item.leadAfter o) (s.output o).lead := by
  rw [applyClosed_free s announced closed free, endApplication_output, applyItems_lead o _ rfl]

end

/-! ### What a list makes of a slot -/

section
variable {h : Nat} {e : Entry} {ok : Bool} {r : Run}

theorem afterItem_unnamed {v : Slot} {i : Item} (unnamed : i.names h = false) :
    v.afterItem h i = if i.hushes v then v.silenced else v := by
  simp [Slot.afterItem, unnamed]

/-- Items that neither name a slot nor lead the output of its LIVE entry leave it. -/
theorem foldl_afterItem_spared {v : Slot} (xs : List Item) (unnamed : ∀ i ∈ xs, i.names h = false)
    (unled : ∀ i ∈ xs, i.hushes v = false) : xs.foldl (Slot.afterItem h) v = v := by
  induction xs with
  | nil => rfl
  | cons i xs ih =>
    rw [List.foldl_cons, afterItem_unnamed (unnamed i (by simp)), if_neg (by simp [unled i (by simp)])]
    exact ih (fun j m => unnamed j (by simp [m])) (fun j m => unled j (by simp [m]))

/-- Items that do not name the slot of a LIVE entry end its activity where one of them leads its output, and leave it
otherwise (R124). -/
theorem foldl_afterItem_unnamed (xs : List Item) (unnamed : ∀ i ∈ xs, i.names h = false) (e : Entry) (ok : Bool) (r : Run) :
    xs.foldl (Slot.afterItem h) (.live e ok r)
      = .live e ok (if xs.any (fun i => i.hushes (.live e ok r)) then { r with activity := .idle } else r) := by
  induction xs generalizing r with
  | nil => rfl
  | cons i xs ih =>
    have later := fun j m => unnamed j (List.mem_cons_of_mem i m)
    have alike (j : Item) : j.hushes (.live e ok { r with activity := .idle }) = j.hushes (.live e ok r) := by
      cases j <;> rfl
    rw [List.foldl_cons, afterItem_unnamed (unnamed i (by simp))]
    cases led : i.hushes (.live e ok r) with
    | false => simp only [Bool.false_eq_true, if_false, ih later, List.any_cons, led, Bool.false_or]
    | true =>
      simp only [if_true, Slot.silenced, ih later, List.any_cons, led, Bool.true_or]
      split <;> rfl

/-- A slot that is not LIVE keeps what it holds through items that do not name it. -/
theorem foldl_afterItem_notLive {v : Slot} (xs : List Item) (unnamed : ∀ i ∈ xs, i.names h = false)
    (notLive : ∀ p, v.liveWith p = false) : xs.foldl (Slot.afterItem h) v = v :=
  foldl_afterItem_spared xs unnamed (fun i _ => hushes_of_notLive i notLive)

/-- Of items that name no handle twice, the one that names a slot stands between items that do not. -/
theorem split_named {xs : List Item} {i : Item} (nodup : (xs.filterMap Item.handle?).Nodup) (mem : i ∈ xs)
    (names : i.names h = true) : ∃ before after, xs = before ++ i :: after
      ∧ (∀ j ∈ before, j.names h = false) ∧ ∀ j ∈ after, j.names h = false := by
  obtain ⟨before, after, rfl⟩ := List.append_of_mem mem
  have handle : i.handle? = some h := by simpa [Item.names] using names
  rw [List.filterMap_append, List.filterMap_cons_some handle] at nodup
  have distinct := (List.nodup_cons.1 (List.nodup_middle.1 nodup)).1
  have other {j : Item} (m : j ∈ before ∨ j ∈ after) : j.names h = false := by
    rw [Bool.eq_false_iff]
    intro named
    have handle' : j.handle? = some h := by simpa [Item.names] using named
    refine distinct (List.mem_append.2 ?_)
    rcases m with m | m
    · exact .inl (List.mem_filterMap.2 ⟨j, m, handle'⟩)
    · exact .inr (List.mem_filterMap.2 ⟨j, m, handle'⟩)
  exact ⟨before, after, rfl, fun j m => other (.inl m), fun j m => other (.inr m)⟩

/-- A LIVE entry that is IDLE keeps its fields through items that do not name it. -/
theorem foldl_afterItem_idle (xs : List Item) (unnamed : ∀ i ∈ xs, i.names h = false) (idle : r.activity = .idle) :
    xs.foldl (Slot.afterItem h) (.live e ok r) = .live e ok r := by
  rw [foldl_afterItem_unnamed xs unnamed]
  split
  · rw [← idle]
  · rfl

/-- A PLACE of a list makes the consistent STAGED entry LIVE (R121). -/
theorem foldl_afterItem_place {xs : List Item} (nodup : (xs.filterMap Item.handle?).Nodup) (mem : Item.place h ∈ xs) :
    xs.foldl (Slot.afterItem h) (.staged e true) = .live e true Run.fresh := by
  obtain ⟨before, after, rfl, first, last⟩ := split_named (h := h) nodup mem (by simp [Item.names, Item.handle?])
  rw [List.foldl_append, List.foldl_cons, foldl_afterItem_notLive before first (fun _ => rfl)]
  have placed : (Slot.staged e true).afterItem h (.place h) = .live e true Run.fresh := by
    simp [Slot.afterItem, Item.names, Item.handle?, Slot.failsCheck, Item.writes]
  rw [placed]
  exact foldl_afterItem_idle after last rfl

/-- The items before the one that names a LIVE entry end its activity at most. -/
theorem foldl_afterItem_before (xs : List Item) (unnamed : ∀ i ∈ xs, i.names h = false) (e : Entry) (ok : Bool) (r : Run) :
    ∃ act, xs.foldl (Slot.afterItem h) (.live e ok r) = .live e ok { r with activity := act } := by
  rw [foldl_afterItem_unnamed xs unnamed]
  split
  · exact ⟨.idle, rfl⟩
  · exact ⟨r.activity, rfl⟩

/-- An ALTER of a list writes its values over the consistent LIVE entry, which goes IDLE (R122). -/
theorem foldl_afterItem_alter {xs : List Item} {v : AlterValues} (nodup : (xs.filterMap Item.handle?).Nodup)
    (mem : Item.alter h v ∈ xs) : xs.foldl (Slot.afterItem h) (.live e true r)
      = .live (v.writeTo e) true { activity := .idle, spent := false, log := r.log } := by
  obtain ⟨before, after, rfl, first, last⟩ := split_named (h := h) nodup mem (by simp [Item.names, Item.handle?])
  obtain ⟨act, held⟩ := foldl_afterItem_before before first e true r
  rw [List.foldl_append, List.foldl_cons, held]
  have altered : (Slot.live e true { r with activity := act }).afterItem h (.alter h v)
      = .live (v.writeTo e) true { activity := .idle, spent := false, log := r.log } := by
    simp [Slot.afterItem, Item.names, Item.handle?, Slot.failsCheck, Item.writes]
  rw [altered]
  exact foldl_afterItem_idle after last rfl

/-- Where no item leads an output its lead stands. -/
theorem foldl_leadAfter_spared {o : OutId} (xs : List Item) (unled : ∀ i ∈ xs, i.leads o = false) (v : Int) :
    xs.foldl (Item.leadAfter o) v = v := by
  induction xs with
  | nil => rfl
  | cons i xs ih =>
    have first : i.leadAfter o v = v := by
      have unled := unled i (by simp)
      cases i with
      | setLead p lead =>
        have ne : p ≠ o := by simpa [Item.leads] using unled
        simp [Item.leadAfter, ne]
      | _ => rfl
    rw [List.foldl_cons, first]
    exact ih (fun j m => unled j (by simp [m]))

end

end Sys2Proof.Machine
end

section
/-! SUPPORT. What parts 3 and 4 of a step judge: the entries in force after the wrap part (R60), and their turns (R63 to
R70). -/

namespace Sys2Proof.Machine

/-! ### The wrap part -/

/-- A slot whose entry is not spent. -/
def Slot.unspent : Slot → Slot
  | .live e ok r => .live e ok { r with spent := false }
  | v => v

section
variable {s : State} {a : AxisId} {h : Nat}

theorem clearSpent_slot_self (s : State) (h : Nat) : (s.clearSpent h).slot h = (s.slot h).unspent := by
  unfold State.clearSpent
  cases held : s.slot h with
  | live e ok r => exact State.setSlot_slot_self _ _ _
  | _ => exact held

/-- The slots after spent has been cleared on some entries (R60). -/
theorem foldl_clearSpent_slot (hs : List Nat) (s : State) (k : Nat) :
    (hs.foldl State.clearSpent s).slot k = if k ∈ hs then (s.slot k).unspent else s.slot k := by
  have twice (v : Slot) : v.unspent.unspent = v.unspent := by cases v <;> rfl
  induction hs generalizing s with
  | nil => rfl
  | cons h hs ih =>
    rw [List.foldl_cons, ih]
    by_cases same : h = k
    · subst same
      simp [clearSpent_slot_self, twice]
    · rw [clearSpent_slot_ne s same]
      simp [Ne.symm same]

theorem begun_plain (still : (s.axis a).plan.wrap = false) : s.begun a = s := by
  unfold State.begun; rw [if_neg (by simp [still])]

theorem begun_slot_live {e : Entry} {ok : Bool} {r : Run} (below : h < Config.slotCount)
    (wraps : (s.axis a).plan.wrap = true) (live : s.slot h = .live e ok r) (own : e.axis = a) :
    (s.begun a).slot h = .live e ok { r with spent := false } := by
  have mem : h ∈ (s.setAxis a ((s.axis a).wrapRevolution (s.axis a).plan.dir)).liveOf a := by
    refine liveOf_spec.2 ⟨below, ?_⟩
    rw [State.setAxis_slot, live]
    simp [Slot.liveWith, own]
  unfold State.begun State.beginWrap
  rw [if_pos wraps]
  simp only
  rw [foldl_clearSpent_slot, if_pos mem, State.setAxis_slot, live]
  rfl

theorem begun_slot_staged {e : Entry} {ok : Bool} (staged : s.slot h = .staged e ok) :
    (s.begun a).slot h = .staged e ok := by
  unfold State.begun State.beginWrap
  split
  · simp only
    rw [foldl_clearSpent_slot, State.setAxis_slot, staged]
    split <;> rfl
  · exact staged

theorem clearSpent_lists (s : State) (h : Nat) : (s.clearSpent h).lists = s.lists := by
  unfold State.clearSpent; split <;> rfl

theorem clearSpent_outputs (s : State) (h : Nat) : (s.clearSpent h).outputs = s.outputs := by
  unfold State.clearSpent; split <;> rfl

theorem begun_lists (s : State) (a : AxisId) : (s.begun a).lists = s.lists := by
  unfold State.begun State.beginWrap
  split
  · exact foldl_keeps State.lists State.clearSpent clearSpent_lists _ _
  · rfl

theorem begun_outputs (s : State) (a : AxisId) : (s.begun a).outputs = s.outputs := by
  unfold State.begun State.beginWrap
  split
  · exact foldl_keeps State.outputs State.clearSpent clearSpent_outputs _ _
  · rfl

theorem releaseAxis_slot (s : State) (a : AxisId) (k : Nat) : (s.releaseAxis a).slot k = s.slot k := by
  have beyond := releaseAxis_beyond s a
  simp only [State.beyondSafety, Prod.mk.injEq] at beyond
  simp only [State.slot, beyond.1]

theorem wrapped_plain (still : (s.axis a).plan.wrap = false) : s.wrapped a = s := by
  unfold State.wrapped; rw [if_neg (by simp [still]), begun_plain still]

theorem wrapped_slot_open (opened : (s.list a).closed = false) (k : Nat) : (s.wrapped a).slot k = (s.begun a).slot k := by
  unfold State.wrapped
  split
  · rw [releaseAxis_slot, applyClosed_open (by rw [list_of_lists (begun_lists s a)]; exact opened)]
  · rfl

theorem wrapped_slot_closed (free : Free a s) (closed : (s.list a).closed = true) (wraps : (s.axis a).plan.wrap = true)
    (below : h < Config.slotCount) :
    (s.wrapped a).slot h = (s.list a).items.foldl (Slot.afterItem h) ((s.begun a).slot h) := by
  have list := list_of_lists (begun_lists s a) a
  unfold State.wrapped
  rw [if_pos wraps, releaseAxis_slot, applyClosed_slot (begun_free free) (by rw [list]; exact closed) true below, list]

theorem hushes_live {i : Item} {e : Entry} {ok : Bool} {r : Run} :
    i.hushes (.live e ok r) = true ↔ ∃ o lead, i = .setLead o lead ∧ e.output = some o := by
  cases i with
  | setLead o lead => simp [Item.hushes, Slot.liveWith, Entry.targets]
  | _ => simp [Item.hushes]

/-- Items that lead no output of an entry do not end its activity. -/
theorem hushes_of_unled {i : Item} {e : Entry} {ok : Bool} {r : Run} (unled : ∀ o, e.output = some o → i.leads o = false) :
    i.hushes (.live e ok r) = false := by
  rw [Bool.eq_false_iff]
  intro led
  obtain ⟨o, lead, rfl, output⟩ := hushes_live.1 led
  have not := unled o output
  simp [Item.leads] at not

/-- What parts 3 and 4 of a step judge is what the statements say is in force (R60, R120). -/
theorem wrapped_slot_inForce {e : Entry} {ok : Bool} {r : Run} (free : Free a s) (inside : (s.axis a).position < (s.axis a).modulus)
    (below : h < Config.slotCount) (own : e.axis = a) (force : s.InForce a h e ok r) :
    (s.wrapped a).slot h = .live e ok r := by
  have wraps_iff := plan_wrap_iff inside
  cases force with
  | untouched _ _ _ live still =>
    rw [wrapped_plain (by rw [Bool.eq_false_iff]; exact fun wrap => still (wraps_iff.1 wrap))]
    exact live
  | spared e ok r live wraps unnamed =>
    have begun := begun_slot_live below (wraps_iff.2 wraps) live own
    cases closed : (s.list a).closed with
    | false => rw [wrapped_slot_open closed, begun]
    | true =>
      have spared := unnamed wraps closed
      rw [wrapped_slot_closed free closed (wraps_iff.2 wraps) below, begun]
      refine foldl_afterItem_spared _ (fun i m => (spared i m).1) (fun i m => hushes_of_unled (fun o output => ?_))
      exact (spared i m).2 o (by rw [live]; exact output)
  | led e ok r o lead live applies item target unnamed =>
    rw [wrapped_slot_closed free applies.2.1 (wraps_iff.2 applies.1) below,
      begun_slot_live below (wraps_iff.2 applies.1) live own, foldl_afterItem_unnamed _ unnamed, if_pos]
    exact List.any_eq_true.2 ⟨_, item, hushes_live.2 ⟨o, lead, rfl, target⟩⟩
  | placed _ staged applies item =>
    rw [wrapped_slot_closed free applies.2.1 (wraps_iff.2 applies.1) below, begun_slot_staged staged,
      foldl_afterItem_place applies.2.2 item]
  | altered e r v live applies item =>
    rw [wrapped_slot_closed free applies.2.1 (wraps_iff.2 applies.1) below,
      begun_slot_live below (wraps_iff.2 applies.1) live own, foldl_afterItem_alter applies.2.2 item]

end

/-! ### The latches -/

/-- The toggle latches of the outputs. -/
def State.latches (s : State) (o : OutId) : Bool := (s.output o).latch

theorem latches_of_outputs {s t : State} (same : t.outputs = s.outputs) : t.latches = s.latches := by
  funext o
  simp only [State.latches, State.output, same]

theorem setOutput_latches {s : State} {o : OutId} {x : Output} (same : x.latch = (s.output o).latch) :
    (s.setOutput o x).latches = s.latches := by
  funext p
  simp only [State.latches, State.setOutput_output]
  split
  · next eq => rw [same, eq]
  · rfl

/-- The work on entries inverts no latch but by a TOGGLE. -/
theorem latches_turnKept (f : OutId → Bool) : TurnKept (fun s => s.latches = f) where
  slot _ _ holds := holds
  output holds tame := (setOutput_latches tame.2).trans holds
  drop _ _ holds := holds
  report {s} cause a p rev holds := (latches_of_outputs (reportFault_outputs s cause a p rev)).trans holds
  channel _ _ holds _ := holds

theorem latches_listKept (x : AxisId) (announced : Bool) (f : OutId → Bool) :
    ListKept x announced (fun s => s.latches = f) where
  slot holds _ := holds
  output holds _ same := (setOutput_latches same).trans holds
  list _ _ holds := holds
  latch _ holds := holds
  report {s} cause a p rev holds := (latches_of_outputs (reportFault_outputs s cause a p rev)).trans holds
  channel holds _ _ := holds

theorem releaseAxis_latches (s : State) (a : AxisId) : (s.releaseAxis a).latches = s.latches := by
  unfold State.releaseAxis State.releaseWhere
  split
  · split
    · have outputs := (finishRelease_condition
        { s with outputs := s.outputs.map (Output.release (fun b => b == some a)) }).2.2
      rw [latches_of_outputs outputs]
      funext o
      refine (congrArg Output.latch (output_map s (Output.release (fun b => b == some a)) o)).trans ?_
      unfold Output.release; split <;> rfl
    · rfl
  · rfl

theorem wrapped_latches (s : State) (a : AxisId) : (s.wrapped a).latches = s.latches := by
  have begun := latches_of_outputs (begun_outputs s a)
  unfold State.wrapped
  split
  · rw [releaseAxis_latches]
    exact (latches_listKept a true s.latches).applyClosed begun
  · exact begun

theorem advance_latches (s : State) (a : AxisId) : (s.advance a).latches = s.latches := by
  unfold State.advance; split <;> rfl

/-- Since the latches were `f`, those of the outputs that this part has inverted have been inverted once (R65). -/
def State.InvertedSince (a : AxisId) (f : OutId → Bool) (s : State) : Prop :=
  ∀ o, s.latches o = if o ∈ (s.channel a).inverted then !f o else f o

theorem invertOnce_since {a : AxisId} {f : OutId → Bool} {s : State} (o : OutId) (since : s.InvertedSince a f) :
    (s.invertOnce a o).InvertedSince a f := by
  unfold State.invertOnce
  simp only
  split
  · exact since
  · next fresh =>
    intro p
    rw [State.setChannel_channel_self]
    have latch : (((s.setOutput o (s.output o).invertLatch).setChannel a
        { s.channel a with inverted := o :: (s.channel a).inverted }).latches p)
        = if o = p then !s.latches o else s.latches p := by
      simp only [State.latches, State.setChannel_output, State.setOutput_output]
      split <;> rfl
    rw [latch]
    by_cases same : o = p
    · subst same
      rw [if_pos rfl, since o, if_neg fresh]
      simp
    · rw [if_neg same, since p]
      simp [Ne.symm same]

theorem channel_inverted {a b : AxisId} {s : State} {c : Channel} (same : c.inverted = (s.channel a).inverted) :
    ((s.setChannel a c).channel b).inverted = (s.channel b).inverted := by
  rw [State.setChannel_channel]
  split
  · next eq => rw [same, eq]
  · rfl

theorem invertOnce_other {a b : AxisId} {s : State} (o p : OutId) (mem : p ∈ (s.channel a).inverted) :
    p ∈ ((s.invertOnce b o).channel a).inverted := by
  unfold State.invertOnce
  simp only
  split
  · exact mem
  · rw [State.setChannel_channel]
    split
    · next eq => subst eq; exact List.mem_cons_of_mem _ mem
    · exact mem

/-- An output that has been inverted by this part stays so (R65). -/
theorem inverted_entryKept (a : AxisId) (o : OutId) : EntryKept (fun s => o ∈ (s.channel a).inverted) where
  slot _ _ holds := holds
  output holds _ := holds
  drop _ _ holds := holds
  report {s} cause b p rev holds := by rw [reportFault_channel]; exact holds
  channel b c holds same := by rw [channel_inverted same]; exact holds
  invert b p holds := invertOnce_other p o holds

theorem since_turnKept (a : AxisId) (f : OutId → Bool) : TurnKept (State.InvertedSince a f) where
  slot _ _ holds := holds
  output {s o x} holds tame := fun p => (congrFun (setOutput_latches tame.2) p).trans (holds p)
  drop _ _ holds := holds
  report {s} cause b p rev holds := fun o => by
    rw [reportFault_channel, latches_of_outputs (reportFault_outputs s cause b p rev)]; exact holds o
  channel {s} b c holds same := fun o => by rw [channel_inverted same]; exact holds o

end Sys2Proof.Machine
end

section
/-! SUPPORT. Parts 3 and 4 of a step and the settle of the applied entries, on one entry (R63 to R70, R74). -/

namespace Sys2Proof.Machine

/-! ### The turn of one entry in parts 3 and 4 -/

/-- The activity that a fire of a PULSE, TOGGLE or MARK leaves (R64 to R66). -/
def Entry.firedActivity (e : Entry) : Activity :=
  match e.action with
  | .pulse _ d _ => .active (some d)
  | _ => .idle

/-- Whether the qualifier of an entry admits a step's direction (R63). -/
def Entry.admits (e : Entry) (dir : FireDir) : Bool := e.qualifier?.any (fun q => q.admits dir)

/-- What part 3 leaves of a PULSE, TOGGLE or MARK at the step point (R63 to R66, R84). -/
def Entry.crossedSlot (e : Entry) (ok : Bool) (r : Run) (revolution : BitVec 16) (dir : FireDir) : Slot :=
  if ok = false then .fenced e false r.log
  else if e.admits dir = true ∧ r.spent = false then .live e true (fireLeaves r e revolution dir e.firedActivity true)
  else .live e true r

/-- What part 4 leaves of a WINDOW with a boundary at the step point, entered or left (R69, R70, R84). -/
def Entry.boundedSlot (e : Entry) (ok entered : Bool) (r : Run) (revolution : BitVec 16) (dir : FireDir) : Slot :=
  if ok = false then .fenced e false r.log
  else if entered = false then .live e true { r with activity := .idle }
  else if r.activity = .idle ∧ r.spent = false then .live e true (fireLeaves r e revolution dir (.active none) true)
  else .live e true r

section
variable {a : AxisId} {s : State} {h : Nat} {e : Entry} {ok : Bool} {r : Run}

theorem fire_slot_free (live : s.slot h = .live e ok r) (own : e.axis = a) (dir : FireDir) (act : Activity) (free : Free a s) :
    (s.fire a h dir act).slot h = .live e ok (fireLeaves r e (s.axis a).revolution dir act true) := by
  rw [fire_slot_live a s dir act live, handsOver_of_free free, own]

theorem crossFire_slot_self (live : s.slot h = .live e true r) (own : e.axis = a) (other : e.kind ≠ .window)
    (dir : FireDir) (free : Free a s) : (s.crossFire a h e r dir).slot h
      = .live e true (fireLeaves r e (s.axis a).revolution dir e.firedActivity true) := by
  unfold State.crossFire Entry.firedActivity
  unfold Entry.kind at other
  cases action : e.action with
  | window o off => simp [action] at other
  | pulse o d q =>
    simp only
    split
    · rw [activate_slot_live live dir _ free, own]
    · exact fire_slot_free live own dir _ free
  | toggle o q =>
    have inverted : (s.invertOnce a o).slot h = .live e true r := (invertOnce_slot s a o h).trans live
    have record : (s.invertOnce a o).axis a = s.axis a := State.axis_of_still (invertOnce_still s a o) a
    rw [fire_slot_free inverted own dir _ (free_of_way (invertOnce_way a s o) free), record]
  | mark q => exact fire_slot_free live own dir _ free

/-- The turn of a PULSE, TOGGLE or MARK in part 3 (R63). -/
theorem cross_slot_self (live : s.slot h = .live e ok r) (own : e.axis = a) (referenced : (s.axis a).referenced = true)
    (working : (s.axis a).state ≠ .faulted) (other : e.kind ≠ .window) (dir : FireDir) (free : Free a s) :
    (s.runEntry a (.cross h dir)).slot h = e.crossedSlot ok r (s.axis a).revolution dir := by
  have judged := judged_of_live live own referenced working
  show (s.judge a h _).slot h = _
  unfold Entry.crossedSlot Entry.admits
  cases ok with
  | false =>
    rw [if_pos rfl]
    exact judge_slot_of_inconsistent judged _
  | true =>
    rw [if_neg (c := true = false) nofun, judge_of_ok judged]
    by_cases fires : e.qualifier?.any (fun q => q.admits dir) = true ∧ r.spent = false
    · rw [if_pos fires, if_pos fires]
      exact crossFire_slot_self live own other dir free
    · rw [if_neg fires, if_neg fires]
      exact live

/-- The turn of a WINDOW in part 4 (R69, R70). -/
theorem boundary_slot_self (live : s.slot h = .live e ok r) (own : e.axis = a) (referenced : (s.axis a).referenced = true)
    (working : (s.axis a).state ≠ .faulted) {o : OutId} {off : Nat} (window : e.action = .window o off) (point : Nat)
    (dir : FireDir) (free : Free a s) :
    (s.runEntry a (.boundary h point dir)).slot h
      = e.boundedSlot ok (s.enters e point dir) r (s.axis a).revolution dir := by
  have judged := judged_of_live live own referenced working
  show (s.judge a h _).slot h = _
  unfold Entry.boundedSlot
  cases ok with
  | false =>
    rw [if_pos rfl]
    exact judge_slot_of_inconsistent judged _
  | true =>
    rw [if_neg (c := true = false) nofun, judge_of_ok judged]
    simp only [window]
    cases s.enters e point dir with
    | false =>
      rw [if_neg (c := false = true) nofun, if_pos rfl]
      exact endActivity_slot_self_live live
    | true =>
      rw [if_pos rfl, if_neg (c := true = false) nofun]
      by_cases enters : r.activity = .idle ∧ r.spent = false
      · rw [if_pos enters, if_pos enters, activate_slot_live live dir _ free, own]
      · rw [if_neg enters, if_neg enters]
        exact live

end

/-! ### Parts 3 and 4 -/

/-- No output has been inverted by this part yet (R65). -/
def State.uninverted (s : State) (a : AxisId) : State := s.setChannel a { s.channel a with inverted := [] }

/-- The entries whose turn part 3 takes (R63). -/
def State.crossList (s : State) (a : AxisId) (point : Nat) : List Nat :=
  s.liveInOrder a (fun e => !e.isWindow && s.effOn e == point)

/-- The entries whose turn part 4 takes (R68). -/
def State.boundaryList (s : State) (a : AxisId) (point : Nat) : List Nat :=
  s.liveInOrder a (fun e => e.isWindow && (s.effOn e == point || s.effOff e == some point))

theorem isWindow_of_action {e : Entry} {o : OutId} {off : Nat} (window : e.action = .window o off) : e.isWindow = true := by
  simp [Entry.isWindow, Entry.kind, window]

section
variable {a : AxisId} {s : State} {h : Nat} {e : Entry} {ok : Bool} {r : Run} {point : Nat} {dir : FireDir}

theorem uninverted_near (s : State) (a : AxisId) : State.Near s (s.uninverted a) := ⟨rfl, rfl⟩

theorem uninverted_free (free : Free a s) : Free a (s.uninverted a) := free_of_way (clearInverted_way a s) free

theorem crossings_eq (s : State) (a : AxisId) (point : Nat) (dir : FireDir) : s.crossings a point dir
    = (s.uninverted a).takeEntries a ((s.crossList a point).map (fun h => .cross h dir)) := rfl

theorem boundaries_eq (s : State) (a : AxisId) (point : Nat) (dir : FireDir) : s.boundaries a point dir
    = (s.uninverted a).takeEntries a ((s.boundaryList a point).map (fun h => .boundary h point dir)) := rfl

theorem crossings_near (s : State) (a : AxisId) (point : Nat) (dir : FireDir) : State.Near s (s.crossings a point dir) :=
  (uninverted_near s a).trans (takeEntries_near a _ _)

theorem boundaries_near (s : State) (a : AxisId) (point : Nat) (dir : FireDir) :
    State.Near s (s.boundaries a point dir) := (uninverted_near s a).trans (takeEntries_near a _ _)

theorem crossings_free (free : Free a s) : Free a (s.crossings a point dir) :=
  (takeEntries_free _ _ (uninverted_free free)).2

theorem boundaries_free (free : Free a s) : Free a (s.boundaries a point dir) :=
  (takeEntries_free _ _ (uninverted_free free)).2

theorem mem_crossList (below : h < Config.slotCount) (live : s.slot h = .live e ok r) (own : e.axis = a) :
    h ∈ s.crossList a point ↔ e.isWindow = false ∧ s.effOn e = point := by
  rw [State.crossList, mem_liveInOrder, live]
  simp [Slot.liveWith, own, below]

theorem mem_boundaryList (below : h < Config.slotCount) (live : s.slot h = .live e ok r) (own : e.axis = a) :
    h ∈ s.boundaryList a point ↔ e.isWindow = true ∧ (s.effOn e = point ∨ s.effOff e = some point) := by
  rw [State.boundaryList, mem_liveInOrder, live]
  simp [Slot.liveWith, own, below]

theorem crossings_slot_other (unlisted : h ∉ s.crossList a point) (free : Free a s) :
    (s.crossings a point dir).slot h = s.slot h := by
  rw [crossings_eq, (takeEntries_free _ _ (uninverted_free free)).1]
  exact turns_slot_other a (fun _ => rfl) unlisted (uninverted_free free)

theorem boundaries_slot_other (unlisted : h ∉ s.boundaryList a point) (free : Free a s) :
    (s.boundaries a point dir).slot h = s.slot h := by
  rw [boundaries_eq, (takeEntries_free _ _ (uninverted_free free)).1]
  exact turns_slot_other a (fun _ => rfl) unlisted (uninverted_free free)

/-- Part 3, on a PULSE, TOGGLE or MARK at the step point (R63). -/
theorem crossings_slot_self (below : h < Config.slotCount) (live : s.slot h = .live e ok r) (own : e.axis = a)
    (referenced : (s.axis a).referenced = true) (working : (s.axis a).state ≠ .faulted) (other : e.kind ≠ .window)
    (at_ : s.effOn e = point) (free : Free a s) :
    (s.crossings a point dir).slot h = e.crossedSlot ok r (s.axis a).revolution dir := by
  have mem : h ∈ s.crossList a point := (mem_crossList below live own).2 ⟨by simpa [Entry.isWindow] using other, at_⟩
  have free' := uninverted_free free
  obtain ⟨u, near, slot, freed, turn⟩ :=
    turns_slot a (f := fun h => .cross h dir) (fun _ => rfl) (liveInOrder_nodup s a _) mem free'
  have record := ((uninverted_near s a).trans near).axis a
  rw [crossings_eq, (takeEntries_free _ _ free').1]
  refine turn.trans ?_
  rw [cross_slot_self (slot.trans live) own (by rw [record]; exact referenced) (by rw [record]; exact working) other dir
    freed, record]

/-- Part 4, on a WINDOW with a boundary at the step point (R68). -/
theorem boundaries_slot_self (below : h < Config.slotCount) (live : s.slot h = .live e ok r) (own : e.axis = a)
    (referenced : (s.axis a).referenced = true) (working : (s.axis a).state ≠ .faulted) {o : OutId} {off : Nat}
    (window : e.action = .window o off) (at_ : s.effOn e = point ∨ s.effective e off = point) (free : Free a s) :
    (s.boundaries a point dir).slot h
      = e.boundedSlot ok (s.enters e point dir) r (s.axis a).revolution dir := by
  have mem : h ∈ s.boundaryList a point := by
    refine (mem_boundaryList below live own).2 ⟨isWindow_of_action window, ?_⟩
    simpa [State.effOff, Entry.off?, window] using at_
  have free' := uninverted_free free
  obtain ⟨u, near, slot, freed, turn⟩ :=
    turns_slot a (f := fun h => .boundary h point dir) (fun _ => rfl) (liveInOrder_nodup s a _) mem free'
  have before := (uninverted_near s a).trans near
  have record := before.axis a
  have enters : u.enters e point dir = s.enters e point dir := by
    simp only [State.enters, State.effOn, before.effective]
  rw [boundaries_eq, (takeEntries_free _ _ free').1]
  refine turn.trans ?_
  rw [boundary_slot_self (slot.trans live) own (by rw [record]; exact referenced) (by rw [record]; exact working) window
    point dir freed, record, enters]

/-! ### The toggle latches through a step -/

theorem invertOnce_marks (s : State) (a : AxisId) (o : OutId) : o ∈ ((s.invertOnce a o).channel a).inverted := by
  unfold State.invertOnce
  simp only
  split
  · next already => exact already
  · rw [State.setChannel_channel_self]
    exact List.mem_cons_self

/-- A TOGGLE that fires in part 3 finds its output inverted by this part, or inverts it (R65). -/
theorem cross_marks (live : s.slot h = .live e true r) (own : e.axis = a) (referenced : (s.axis a).referenced = true)
    (working : (s.axis a).state ≠ .faulted) {o : OutId} {q : Qualifier} (toggle : e.action = .toggle o q)
    (fires : e.admits dir = true ∧ r.spent = false) : o ∈ ((s.runEntry a (.cross h dir)).channel a).inverted := by
  have turn : s.runEntry a (.cross h dir) = (s.invertOnce a o).fire a h dir .idle := by
    show s.judge a h _ = _
    rw [judge_of_ok (judged_of_live live own referenced working)]
    refine (if_pos fires).trans ?_
    simp only [State.crossFire, toggle]
  rw [turn]
  exact (inverted_entryKept a o).toTurnKept.fire a h dir .idle (invertOnce_marks s a o)

/-- Part 3 inverts the latch of the output of a TOGGLE that fires, once (R65). -/
theorem crossings_latch (below : h < Config.slotCount) (live : s.slot h = .live e true r) (own : e.axis = a)
    (referenced : (s.axis a).referenced = true) (working : (s.axis a).state ≠ .faulted) {o : OutId} {q : Qualifier}
    (toggle : e.action = .toggle o q) (at_ : s.effOn e = point) (fires : e.admits dir = true ∧ r.spent = false)
    (free : Free a s) : (s.crossings a point dir).latches o = !s.latches o := by
  have since : (s.crossings a point dir).InvertedSince a s.latches := by
    refine (since_turnKept a s.latches).takeAny a (fun p => invertOnce_since p) _ (fun p => ?_)
    simp [State.setChannel_channel_self, show (s.setChannel a _).latches = s.latches from rfl]
  have mem : h ∈ s.crossList a point :=
    (mem_crossList below live own).2 ⟨by simp [Entry.isWindow, Entry.kind, toggle], at_⟩
  have marked : o ∈ ((s.crossings a point dir).channel a).inverted := by
    have free' := uninverted_free free
    obtain ⟨u, after, near, slot, freed, -, turns⟩ :=
      turns_at a (f := fun h => .cross h dir) (fun _ => rfl) (liveInOrder_nodup s a _) mem free'
    have record := ((uninverted_near s a).trans near).axis a
    have now := cross_marks (dir := dir) (slot.trans live) own (by rw [record]; exact referenced)
      (by rw [record]; exact working) toggle fires
    rw [crossings_eq, (takeEntries_free _ _ free').1]
    refine (congrArg (fun t : State => o ∈ (t.channel a).inverted) turns).mpr ?_
    exact Kept.foldl (P := fun t : State => o ∈ (t.channel a).inverted)
      (fun t task holds => (inverted_entryKept a o).runEntry a task holds) _ now
  rw [since o, if_pos marked]

theorem takeEntries_latches (a : AxisId) {f : Nat → Task} (plain : ∀ h k dir, f h ≠ .cross k dir) (hs : List Nat) (s : State) :
    (s.takeEntries a (hs.map f)).latches = s.latches := by
  refine (latches_turnKept s.latches).takeEntries a _ (fun t m => ?_) rfl
  obtain ⟨k, -, rfl⟩ := List.mem_map.1 m
  exact plain k

theorem boundaries_latches (s : State) (a : AxisId) (point : Nat) (dir : FireDir) :
    (s.boundaries a point dir).latches = s.latches :=
  takeEntries_latches a (fun _ _ _ => by simp) _ (s.uninverted a)

theorem settleApplied_latches (s : State) (a : AxisId) (items : List Item) :
    (s.settleApplied a items).latches = s.latches := takeEntries_latches a (fun _ _ _ => by simp) _ s

/-! ### The settle of the applied entries -/

/-- A settle leaves this slot as it is: it holds no LIVE entry, or a consistent one that is no WINDOW to fire (R73). -/
def State.Calmed (s : State) (v : Slot) : Prop :=
  ∀ e ok r, v = .live e ok r → ok = true ∧ ∀ o off, e.action = .window o off → r.activity = .idle → r.spent = false →
    s.inWindow e off = false

theorem settle_of_calmed {u : State} (near : State.Near s u) (calm : s.Calmed (u.slot h)) : u.runEntry a (.settle h) = u := by
  show u.judge a h (fun e r => u.settleEntry a h e r) = u
  cases judged : u.judged a h with
  | none => exact judge_of_unjudged judged _
  | some found =>
    obtain ⟨e, ok, r⟩ := found
    obtain ⟨consistent, calm⟩ := calm e ok r (judged_eq_some judged)
    subst consistent
    rw [judge_of_ok judged]
    unfold State.settleEntry
    cases action : e.action with
    | window o off =>
      refine if_neg ?_
      rintro ⟨idle, unspent, inside⟩
      rw [near.inWindow, calm o off action idle unspent] at inside
      cases inside
    | _ => rfl

theorem settleApplied_slot_calmed (items : List Item) (calm : s.Calmed (s.slot h)) (free : Free a s) :
    (s.settleApplied a items).slot h = s.slot h := by
  unfold State.settleApplied State.settleAll
  rw [(takeEntries_free _ _ free).1]
  by_cases mem : h ∈ (s.order a).filter (fun h => (s.slot h).entry?.any (fun e => e.appliedBy items h))
  · obtain ⟨u, near, slot, -, turn⟩ :=
      turns_slot a (f := Task.settle) (fun _ => rfl) ((order_nodup s a).filter _) mem free
    rw [turn, settle_of_calmed near (by rw [slot]; exact calm), slot]
  · exact turns_slot_other a (fun _ => rfl) mem free

/-- Entries that the list neither places nor alters, and whose output it does not lead, are not settled (R60). -/
theorem settleApplied_slot_unnamed {items : List Item} (unnamed : ∀ i ∈ items, i.names h = false)
    (unled : ∀ i ∈ items, ∀ e o, (s.slot h).entry? = some e → e.output = some o → i.leads o = false) (free : Free a s) :
    (s.settleApplied a items).slot h = s.slot h := by
  have out : h ∉ (s.order a).filter (fun h => (s.slot h).entry?.any (fun e => e.appliedBy items h)) := by
    rw [List.mem_filter]
    rintro ⟨-, applied⟩
    obtain ⟨e, held, applied⟩ := (Option.any_eq_true _ _).1 applied
    obtain ⟨i, m, asks⟩ := List.any_eq_true.1 applied
    have names := unnamed i m
    cases i with
    | place k => simp [Item.names, Item.handle?] at names asks; exact names asks
    | alter k v => simp [Item.names, Item.handle?] at names asks; exact names asks
    | retire k => simp at asks
    | setLead o lead =>
      have target : e.output = some o := by simpa [Entry.targets] using asks
      have led := unled _ m e o held target
      simp [Item.leads] at led
  unfold State.settleApplied State.settleAll
  rw [(takeEntries_free _ _ free).1]
  exact turns_slot_other a (fun _ => rfl) out free

end

end Sys2Proof.Machine
end

section
/-! SUPPORT. The halt that a step ends leaves the entries alone that its list does not name (R39, R119). -/

namespace Sys2Proof.Machine

/-! ### What the work on entries leaves of a list -/

/-- The list of `a` holds items of `l` in their order, and is closed as `l` is. -/
def State.ListWithin (a : AxisId) (l : PendingList) (s : State) : Prop :=
  (s.list a).closed = l.closed ∧ (s.list a).items.Sublist l.items

theorem listWithin_of_lists {s t : State} {a : AxisId} {l : PendingList} (same : t.lists = s.lists)
    (holds : s.ListWithin a l) : t.ListWithin a l := by
  rw [State.ListWithin, list_of_lists same]; exact holds

/-- Fences drop items of a list, and the rest of the work on entries leaves it (R160). -/
theorem listWithin_entryKept (a : AxisId) (l : PendingList) : EntryKept (State.ListWithin a l) where
  slot _ _ holds := holds
  output holds _ := holds
  invert {s} b o holds := listWithin_of_lists (invertOnce_lists s b o) holds
  drop {s} b h holds := by
    rw [State.ListWithin, State.setList_list]
    split
    · next same =>
      subst same
      exact ⟨(drop_closed _ h).trans holds.1, by rw [drop_items]; exact List.filter_sublist.trans holds.2⟩
    · exact holds
  report {s} cause b p rev holds := listWithin_of_lists (reportFault_lists s cause b p rev) holds
  channel _ _ holds _ := holds

/-! ### The halt -/

section
variable {s : State} {a : AxisId} {h : Nat}

theorem haltReached_slot (s : State) (a : AxisId) (k : Nat) : (s.haltReached a).slot k = s.slot k := by
  unfold State.haltReached; split <;> rfl

theorem haltReached_outputs (s : State) (a : AxisId) : (s.haltReached a).outputs = s.outputs := by
  unfold State.haltReached; split <;> rfl

theorem releaseAxis_lead (s : State) (a : AxisId) (o : OutId) : ((s.releaseAxis a).output o).lead = (s.output o).lead := by
  unfold State.releaseAxis State.releaseWhere
  split
  · split
    · have outputs := (finishRelease_condition
        { s with outputs := s.outputs.map (Output.release (fun b => b == some a)) }).2.2
      refine (congrArg (fun v => (v[o] : Output).lead) outputs).trans ?_
      refine (congrArg Output.lead (output_map s (Output.release (fun b => b == some a)) o)).trans ?_
      unfold Output.release; split <;> rfl
    · rfl
  · rfl

/-- Items that lead no output of the entry in a slot do not end its activity. -/
theorem hushes_of_spared {v : Slot} {i : Item}
    (unled : ∀ e o, v.entry? = some e → e.output = some o → i.leads o = false) : i.hushes v = false := by
  cases v with
  | live e ok r => exact hushes_of_unled (fun o output => unled e o rfl output)
  | _ => exact hushes_of_notLive i (fun _ => rfl)

/-- The closed list of an axis names neither the entry in slot `h` nor its output. -/
def State.ListSpares (s : State) (a : AxisId) (h : Nat) : Prop :=
  (s.list a).closed = true → ∀ i ∈ (s.list a).items, i.names h = false
    ∧ ∀ e o, (s.slot h).entry? = some e → e.output = some o → i.leads o = false

theorem applyClosed_slot_spared (free : Free a s) (below : h < Config.slotCount) (spares : s.ListSpares a h) :
    (s.applyClosed a true).slot h = s.slot h := by
  cases closed : (s.list a).closed with
  | false => rw [applyClosed_open closed]
  | true =>
    rw [applyClosed_slot free closed true below]
    exact foldl_afterItem_spared _ (fun i m => (spares closed i m).1) (fun i m => hushes_of_spared (spares closed i m).2)

theorem applyClosed_lead_spared (free : Free a s) {o : OutId}
    (unled : (s.list a).closed = true → ∀ i ∈ (s.list a).items, i.leads o = false) :
    ((s.applyClosed a true).output o).lead = (s.output o).lead := by
  cases closed : (s.list a).closed with
  | false => rw [applyClosed_open closed]
  | true =>
    rw [applyClosed_lead free closed]
    exact foldl_leadAfter_spared _ (unled closed) _

theorem mem_toApply {l : PendingList} {i : Item} : i ∈ l.toApply ↔ l.closed = true ∧ i ∈ l.items := by
  unfold PendingList.toApply
  cases l.closed <;> simp

/-- The halt of an axis that keeps its reference leaves the entries alone that its list spares (R39). -/
theorem reachHalted_slot_spared (free : Free a s) (plain : (s.axis a).source ≠ .encoder) (below : h < Config.slotCount)
    (spares : s.ListSpares a h) : (s.reachHalted a).slot h = s.slot h := by
  have freed := halted_free free
  have plain' := halted_plain plain
  have slot : ((s.halted a).applyClosed a true).slot h = s.slot h := by
    rw [applyClosed_slot_spared freed below (by rw [plain']; exact spares), plain']
    rfl
  rw [reachHalted_free free, haltReached_slot, releaseAxis_slot, settleApplied_slot_unnamed
    (fun i m => (spares (mem_toApply.1 m).1 i (mem_toApply.1 m).2).1)
    (fun i m => by rw [slot]; exact (spares (mem_toApply.1 m).1 i (mem_toApply.1 m).2).2)
    (applyClosed_keepsFree _ true freed), slot]

theorem reachHalted_lead_spared (free : Free a s) (plain : (s.axis a).source ≠ .encoder) {o : OutId}
    (unled : (s.list a).closed = true → ∀ i ∈ (s.list a).items, i.leads o = false) :
    ((s.reachHalted a).output o).lead = (s.output o).lead := by
  have plain' := halted_plain plain
  have lead : (((s.halted a).applyClosed a true).output o).lead = (s.output o).lead := by
    rw [applyClosed_lead_spared (halted_free free) (by rw [plain']; exact unled), plain']
    rfl
  rw [reachHalted_free free, State.output, haltReached_outputs]
  exact (releaseAxis_lead _ a o).trans ((lead_of_fittings (takeEntries_fittings a _ _) o).trans lead)

theorem reachHalted_latches (free : Free a s) (plain : (s.axis a).source ≠ .encoder) :
    (s.reachHalted a).latches = s.latches := by
  rw [reachHalted_free free, latches_of_outputs (haltReached_outputs _ a), releaseAxis_latches, settleApplied_latches]
  refine (latches_listKept a true s.latches).applyClosed ?_
  rw [halted_plain plain]
  rfl

end

/-! ### The list through a step -/

section
variable {s : State} {a : AxisId}

theorem wrapped_free (free : Free a s) : Free a (s.wrapped a) := by
  unfold State.wrapped; split
  · exact free_of_way (releaseAxis_way a a _) (applyClosed_keepsFree _ true (begun_free free))
  · exact begun_free free

theorem advanced_free (free : Free a s) : Free a (s.advanced a) := free_of_way (advance_way a a _) (wrapped_free free)

theorem crossed_free (free : Free a s) : Free a (s.crossed a) := by
  unfold State.crossed; split
  · exact boundaries_free (crossings_free (advanced_free free))
  · exact advanced_free free

theorem settled_free (free : Free a s) : Free a (s.settled a) := by
  unfold State.settled; split
  · exact settleApplied_free _ (crossed_free free)
  · exact crossed_free free

theorem advance_lists (s : State) (a : AxisId) : (s.advance a).lists = s.lists := by
  unfold State.advance; split <;> rfl

theorem advance_outputs (s : State) (a : AxisId) : (s.advance a).outputs = s.outputs := by
  unfold State.advance; split <;> rfl

theorem advance_slot (s : State) (a : AxisId) (k : Nat) : (s.advance a).slot k = s.slot k := by
  unfold State.advance; split <;> rfl

/-- What the work on entries and a new part of the step keep, parts 3 and 4 and the settle keep. -/
theorem EntryKept.settled {P : State → Prop} (k : EntryKept P) (clears : ∀ {t : State}, P t → P (t.uninverted a))
    (holds : P (s.advanced a)) : P (s.settled a) := by
  have crossed : P (s.crossed a) := by
    unfold State.crossed; split
    · exact k.takeEntries a _ (clears (k.takeEntries a _ (clears holds)))
    · exact holds
  unfold State.settled; split
  · exact k.takeEntries a _ crossed
  · exact crossed

theorem settled_near (s : State) (a : AxisId) : State.Near (s.advanced a) (s.settled a) :=
  ⟨settled_still s a, (fittings_entryKept (s.advanced a).fittings).settled id rfl⟩

/-- On a wrap a closed list is applied, so that no list is closed at the end of the step (R60). -/
theorem settled_opened (free : Free a s) (wraps : (s.axis a).plan.wrap = true) : ((s.settled a).list a).closed = false := by
  have lists : (s.wrapped a).lists = ((s.begun a).applyClosed a true).lists := by
    unfold State.wrapped
    rw [if_pos wraps, releaseAxis_lists]
  have opened : ((s.wrapped a).list a).closed = false := by
    rw [list_of_lists lists]
    cases closed : ((s.begun a).list a).closed with
    | false => rw [applyClosed_open closed]; exact closed
    | true =>
      rw [applyClosed_free _ true closed (begun_free free)]
      exact (endApplication_applied _ a).1
  have kept : (s.settled a).closedLists = (s.advanced a).closedLists := (closedLists_entryKept _).settled id rfl
  refine (congrFun kept a).trans ?_
  show ((s.advanced a).list a).closed = false
  rw [State.advanced, list_of_lists (advance_lists _ a)]
  exact opened

/-- Without a wrap the list at the end of the step is the list before it, but for items of fenced entries (R160). -/
theorem settled_listWithin (still : (s.axis a).plan.wrap = false) : (s.settled a).ListWithin a (s.list a) := by
  refine (listWithin_entryKept a (s.list a)).settled id (listWithin_of_lists (advance_lists _ a) ?_)
  rw [wrapped_plain still]
  exact ⟨rfl, List.Sublist.refl _⟩

end

/-! ### The end of the step -/

section
variable {s : State} {a : AxisId} {h : Nat} {e : Entry} {ok : Bool} {r : Run}

theorem stepping_of_keeps (keeps : s.StepKeeps a h) : (s.axis a).stepping = true := by
  rcases keeps with steps | ⟨⟨-, halting, -⟩, -⟩
  · exact stepping_of_steps steps
  · simp [Axis.stepping, halting]

theorem counts_of_keeps (keeps : s.StepKeeps a h) : (s.axis a).backlog ≠ 0 := by
  rcases keeps with ⟨counts, -⟩ | ⟨⟨forward | reverse, -⟩, -⟩
  · exact counts
  · rw [forward]; decide
  · rw [reverse]; decide

theorem inside_of_keeps (keeps : s.StepKeeps a h) : (s.axis a).position < (s.axis a).modulus := by
  rcases keeps with ⟨-, -, inside⟩ | ⟨⟨-, -, -, inside⟩, -⟩
  · exact inside
  · exact inside

theorem working_of_stepping {x : Axis} (stepping : x.stepping = true) : x.state ≠ .faulted := by
  intro faulted
  simp [Axis.stepping, faulted] at stepping

/-- What the halt spares is not named by the closed list left at the end of the step (R39). -/
theorem settled_spares (free : Free a s) (inside : (s.axis a).position < (s.axis a).modulus) (spares : s.HaltSpares a h)
    (force : s.InForce a h e ok r) (closed : ((s.settled a).list a).closed = true) {i : Item}
    (mem : i ∈ ((s.settled a).list a).items) : i.names h = false ∧ ∀ o, e.output = some o → i.leads o = false := by
  have stays : ¬ (s.axis a).Wraps := by
    intro wraps
    rw [settled_opened free ((plan_wrap_iff inside).2 wraps)] at closed
    cases closed
  have within := settled_listWithin (s := s) (a := a)
    (by rw [Bool.eq_false_iff]; exact fun wrap => stays ((plan_wrap_iff inside).1 wrap))
  obtain ⟨unnamed, unled⟩ := spares stays (within.1.symm.trans closed) i (within.2.subset mem)
  refine ⟨unnamed, fun o output => unled o ?_⟩
  cases force with
  | untouched _ _ _ live _ => rw [live]; exact output
  | spared _ _ _ _ wraps => exact absurd wraps stays
  | led _ _ _ _ _ _ applies => exact absurd applies.1 stays
  | placed _ _ applies => exact absurd applies.1 stays
  | altered _ _ _ _ applies => exact absurd applies.1 stays

/-- The record of a HALTING axis after the parts of the step that takes its last count (R39, R62). -/
theorem turned_advance_last {x : Axis} (last : x.backlog = 1 ∨ x.backlog = -1) : x.turned.advance
    = { x with position := x.plan.newPosition, backlog := 0, revolution := x.turned.revolution } := by
  rw [turned_fields]
  rcases last with forward | reverse
  · simp [Axis.advance, forward, Axis.plan]
  · simp [Axis.advance, reverse, Axis.plan]

theorem counts_of_last {x : Axis} (last : x.backlog = 1 ∨ x.backlog = -1) : x.backlog ≠ 0 := by omega

theorem settled_axis_self (stepping : (s.axis a).stepping = true) (counts : (s.axis a).backlog ≠ 0) :
    (s.settled a).axis a = (s.axis a).turned.advance :=
  ((settled_near s a).axis a).trans (advanced_axis_self stepping counts)

theorem stepping_of_halting {x : Axis} (halting : x.state = .halting) : x.stepping = true := by
  simp [Axis.stepping, halting]

/-- The step takes the last count of a halt, and HALTED is reached from the state that the parts before leave (R39). -/
theorem stepped_of_halting (halting : (s.axis a).state = .halting)
    (last : (s.axis a).backlog = 1 ∨ (s.axis a).backlog = -1) : s.stepped a = (s.settled a).reachHalted a := by
  unfold State.stepped State.haltIfDone
  refine if_pos ?_
  rw [settled_axis_self (stepping_of_halting halting) (counts_of_last last), turned_advance_last last]
  exact ⟨halting, rfl⟩

theorem settled_plain (last : (s.axis a).StepsLast) : ((s.settled a).axis a).source ≠ .encoder := by
  rw [settled_axis_self (stepping_of_halting last.2.1) (counts_of_last last.1), turned_advance_last last.1]
  exact last.2.2.1

theorem stepped_of_last (last : (s.axis a).StepsLast) : s.stepped a = (s.settled a).reachHalted a
    ∧ ((s.settled a).axis a).source ≠ .encoder := ⟨stepped_of_halting last.2.1 last.1, settled_plain last⟩

/-- The effective points of the entry are those that parts 3 and 4 judge (R19). -/
theorem stepped_effective (free : Free a s) (keeps : s.StepKeeps a h) (force : s.InForce a h e ok r) (own : e.axis = a) :
    (s.stepped a).effective e = (s.advanced a).effective e := by
  have near := settled_near s a
  have inside := inside_of_keeps keeps
  rcases keeps with steps | ⟨last, spares⟩
  · rw [stepped_of_steps steps]
    exact near.effective e
  · obtain ⟨stepped, plain⟩ := stepped_of_last last
    have freed := settled_free free
    rw [stepped, ← near.effective e]
    refine effective_eq ?_ (fun o output => reachHalted_lead_spared freed plain
      (fun closed i m => (settled_spares free inside spares force closed m).2 o output))
    rw [own, (reachHalted_halts freed).own]
    rfl

theorem stepped_latches (free : Free a s) (keeps : s.StepKeeps a h) : (s.stepped a).latches = (s.settled a).latches := by
  rcases keeps with steps | ⟨last, -⟩
  · rw [stepped_of_steps steps]
  · obtain ⟨stepped, plain⟩ := stepped_of_last last
    rw [stepped, reachHalted_latches (settled_free free) plain]

/-- The end of the step leaves the entry in force as the parts before leave it (R39). -/
theorem stepped_slot (free : Free a s) (keeps : s.StepKeeps a h) (below : h < Config.slotCount)
    (force : s.InForce a h e ok r) (entry : ((s.settled a).slot h).entry? = some e) :
    (s.stepped a).slot h = (s.settled a).slot h := by
  have inside := inside_of_keeps keeps
  rcases keeps with steps | ⟨last, spares⟩
  · rw [stepped_of_steps steps]
  · obtain ⟨stepped, plain⟩ := stepped_of_last last
    rw [stepped]
    refine reachHalted_slot_spared (settled_free free) plain below (fun closed i m => ?_)
    obtain ⟨unnamed, unled⟩ := settled_spares free inside spares force closed m
    refine ⟨unnamed, fun e' o same output => unled o ?_⟩
    rw [entry] at same
    obtain rfl : e = e' := Option.some.inj same
    exact output

end

end Sys2Proof.Machine
end

section
/-! SUPPORT. An entry in force through parts 3 and 4 and the settle of a step (R60 to R70, R74). -/

namespace Sys2Proof.Machine

section
variable {s : State} {a : AxisId} {h : Nat} {e : Entry} {ok : Bool} {r : Run}

/-- Parts 3 and 4 judge the entry in force (R60). -/
structure State.Judges (s : State) (a : AxisId) (h : Nat) (e : Entry) (ok : Bool) (r : Run) : Prop where
  free : Free a (s.advanced a)
  live : (s.advanced a).slot h = .live e ok r
  record : (s.advanced a).axis a = (s.axis a).turned.advance
  referenced : ((s.advanced a).axis a).referenced = true
  working : ((s.advanced a).axis a).state ≠ .faulted

theorem judges_of_inForce (free : Free a s) (inside : (s.axis a).position < (s.axis a).modulus)
    (stepping : (s.axis a).stepping = true) (counts : (s.axis a).backlog ≠ 0) (referenced : (s.axis a).referenced = true)
    (below : h < Config.slotCount) (force : s.InForce a h e ok r) (own : e.axis = a) : s.Judges a h e ok r := by
  have record := advanced_axis_self stepping counts
  refine ⟨advanced_free free, ?_, record, ?_, ?_⟩
  · exact (advance_slot _ a h).trans (wrapped_slot_inForce free inside below own force)
  · rw [record, turned_advance_eq _ inside]; exact referenced
  · rw [record, turned_advance_eq _ inside]; exact working_of_stepping stepping

theorem State.Judges.revolution (judges : s.Judges a h e ok r) (inside : (s.axis a).position < (s.axis a).modulus) :
    ((s.advanced a).axis a).revolution = (s.axis a).stepRevolution := by
  rw [judges.record, turned_advance_eq _ inside]
  exact turned_revolution inside

theorem inForce_ahead (force : s.InForce a h e ok r) : (s.ahead []).InForce a h e ok r := by
  cases force with
  | untouched e ok r live still => exact .untouched e ok r live still
  | spared e ok r live wraps unnamed => exact .spared e ok r live wraps unnamed
  | led e ok r o lead live applies item target unnamed => exact .led e ok r o lead live applies item target unnamed
  | placed e staged applies item => exact .placed e staged applies item
  | altered e r v live applies item => exact .altered e r v live applies item

theorem free_ahead (quiet : s.busy a = false) : Free a (s.ahead []) :=
  (free_iff a _).2 ⟨rfl, (by simpa [State.busy] using quiet : (s.channel a).rest = [])⟩

theorem crossed_of_referenced (referenced : (s.axis a).referenced = true) : s.crossed a
    = ((s.advanced a).crossings a (s.axis a).plan.point (s.axis a).plan.dir).boundaries a (s.axis a).plan.point
      (s.axis a).plan.dir := if_pos referenced

theorem settled_slot_calmed (free : Free a s) (calm : (s.crossed a).Calmed ((s.crossed a).slot h)) :
    (s.settled a).slot h = (s.crossed a).slot h := by
  unfold State.settled; split
  · exact settleApplied_slot_calmed _ calm (crossed_free free)
  · rfl

/-! ### A PULSE, TOGGLE or MARK at the step point -/

theorem crossedSlot_entry (revolution : BitVec 16) (dir : FireDir) :
    (e.crossedSlot ok r revolution dir).entry? = some e := by
  unfold Entry.crossedSlot
  split
  · rfl
  · split <;> rfl

theorem calmed_of_entry {t : State} {v : Slot} (entry : v.entry? = some e) (other : e.isWindow = false)
    (consistent : ∀ r, v ≠ .live e false r) : t.Calmed v := by
  rintro e' ok r rfl
  obtain rfl : e' = e := Option.some.inj entry
  refine ⟨?_, fun o off window => ?_⟩
  · rw [← Bool.not_eq_false]
    rintro rfl
    exact consistent r rfl
  · rw [isWindow_of_action window] at other
    cases other

theorem crossedSlot_consistent (revolution : BitVec 16) (dir : FireDir) (r' : Run) :
    e.crossedSlot ok r revolution dir ≠ .live e false r' := by
  unfold Entry.crossedSlot
  split
  · simp
  · split <;> simp

/-- A PULSE, TOGGLE or MARK at the step point is as part 3 leaves it when the parts before the end of the step are done
(R63 to R66). -/
theorem settled_slot_crossed (judges : s.Judges a h e ok r) (free : Free a s) (referenced : (s.axis a).referenced = true)
    (below : h < Config.slotCount) (own : e.axis = a) (other : e.kind ≠ .window)
    (at_ : (s.advanced a).effOn e = (s.axis a).plan.point) :
    (s.settled a).slot h = e.crossedSlot ok r ((s.advanced a).axis a).revolution (s.axis a).plan.dir := by
  have plain : e.isWindow = false := by simpa [Entry.isWindow] using other
  have crossing := crossings_slot_self (dir := (s.axis a).plan.dir) below judges.live own judges.referenced judges.working
    other at_ judges.free
  generalize left : e.crossedSlot ok r ((s.advanced a).axis a).revolution (s.axis a).plan.dir = v at crossing
  have entry : v.entry? = some e := left ▸ crossedSlot_entry _ _
  have unlisted : h ∉ ((s.advanced a).crossings a (s.axis a).plan.point (s.axis a).plan.dir).boundaryList a
      (s.axis a).plan.point := by
    intro mem
    have live := (mem_liveInOrder.1 mem).2
    rw [crossing] at live
    cases v with
    | live e' ok' r' =>
      obtain rfl : e' = e := Option.some.inj entry
      simp [Slot.liveWith, plain] at live
    | _ => simp [Slot.liveWith] at live
  have crossed : (s.crossed a).slot h = v := by
    rw [crossed_of_referenced referenced, boundaries_slot_other unlisted (crossings_free judges.free), crossing]
  rw [settled_slot_calmed free, crossed]
  rw [crossed]
  exact calmed_of_entry entry plain (fun r' => left ▸ crossedSlot_consistent _ _ r')

theorem settled_latch_crossed (judges : s.Judges a h e true r) (referenced : (s.axis a).referenced = true)
    (below : h < Config.slotCount) (own : e.axis = a) {o : OutId} {q : Qualifier} (toggle : e.action = .toggle o q)
    (at_ : (s.advanced a).effOn e = (s.axis a).plan.point)
    (fires : e.admits (s.axis a).plan.dir = true ∧ r.spent = false) : (s.settled a).latches o = !s.latches o := by
  have crossed : (s.crossed a).latches o = !s.latches o := by
    rw [crossed_of_referenced referenced, boundaries_latches, crossings_latch below judges.live own judges.referenced
      judges.working toggle at_ fires judges.free, State.advanced, advance_latches, wrapped_latches]
  unfold State.settled; split
  · rw [settleApplied_latches]; exact crossed
  · exact crossed

/-- The qualifier of an entry admits a step as the statements say (R63). -/
theorem admits_iff {x : Axis} (counts : x.backlog ≠ 0) : e.admits x.stepDir = true ↔ e.qualifier? = some .either
    ∨ (e.qualifier? = some .forward ∧ 0 < x.backlog) ∨ (e.qualifier? = some .reverse ∧ x.backlog < 0) := by
  have reverse : ¬ 0 < x.backlog ↔ x.backlog < 0 := by omega
  unfold Entry.admits Axis.stepDir
  cases e.qualifier? with
  | none => simp
  | some q =>
    by_cases forward : 0 < x.backlog
    · have back : ¬ x.backlog < 0 := by omega
      cases q <;> simp [Qualifier.admits, forward, back]
    · have back : x.backlog < 0 := reverse.1 forward
      cases q <;> simp [Qualifier.admits, forward, back]

end

end Sys2Proof.Machine

open Sys2Proof Sys2Proof.Machine

/-- Settles O25: the entry in force has one turn in part 3, and what follows in the step leaves what that gives it. -/
theorem crossedEntriesFire : Obligations.CrossedEntriesFire := by
  unfold Obligations.CrossedEntriesFire
  intro s a h e ok r x quiet keeps referenced below force own other admitted activity
  have inside : x.position < x.modulus := inside_of_keeps keeps
  have counts : x.backlog ≠ 0 := counts_of_keeps keeps
  have free := free_ahead quiet
  have force' := inForce_ahead force
  have judges := judges_of_inForce (s := s.ahead []) free inside (stepping_of_keeps keeps) counts referenced below
    force' own
  have revolution : (((s.ahead []).advanced a).axis a).revolution = x.stepRevolution :=
    judges.revolution inside
  refine ⟨_, execStep_quiet quiet (stepping_of_keeps keeps) counts, fun at_ => ?_⟩
  have point : ((s.ahead []).advanced a).effOn e = (((s.ahead []).axis a).plan).point := by
    have effective := stepped_effective (s := s.ahead []) free keeps force' own
    rw [State.effOn, ← effective]
    exact at_.trans (plan_point inside).symm
  have settled := settled_slot_crossed judges free referenced below own other point
  rw [revolution, show ((s.ahead []).axis a).plan.dir = x.stepDir from plan_dir x] at settled
  have slot : ((((s.ahead []).stepped a).ahead s.stops).slot h) = e.crossedSlot ok r x.stepRevolution x.stepDir := by
    rw [ahead_slot, stepped_slot (s := s.ahead []) free keeps below force' (by rw [settled]; exact crossedSlot_entry _ _),
      settled]
  rw [slot, Entry.crossedSlot]
  refine ⟨fun inconsistent => if_pos inconsistent, fun consistent stays => ?_, fun consistent fires unspent => ?_⟩
  · rw [if_neg (by simp [consistent]), if_neg]
    exact fun fires => stays ⟨(admits_iff counts).1 fires.1, fires.2⟩
  · have fires' : e.admits x.stepDir = true ∧ r.spent = false := ⟨(admits_iff counts).2 fires, unspent⟩
    refine ⟨by rw [if_neg (by simp [consistent]), if_pos fires']; rfl, fun o q toggle => ?_⟩
    subst consistent
    have latch := settled_latch_crossed judges referenced below own toggle point
      (by rw [show ((s.ahead []).axis a).plan.dir = x.stepDir from plan_dir x]; exact fires')
    rw [← stepped_latches (s := s.ahead []) free keeps] at latch
    exact latch

end

section
/-! SUPPORT. A WINDOW with a boundary at the step point (R68 to R70), and that a settle after it fires none again (R74). -/

namespace Sys2Proof.Machine

/-! ### Left windows -/

theorem effective_lt {s : State} {e : Entry} {m : Nat} (modulus : (s.axis e.axis).modulus = m) (positive : 0 < m) (p : Nat) :
    s.effective e p < m := by
  unfold State.effective effectivePoint wrapTo
  rw [modulus]
  have low := Int.emod_nonneg ((p : Int) - s.leadFor e) (b := (m : Int)) (by omega)
  have high := Int.emod_lt_of_pos ((p : Int) - s.leadFor e) (b := (m : Int)) (by omega)
  omega

/-- The step enters a window where it crosses its on point forward or its off point in reverse (R68). -/
def Axis.entersWindow (x : Axis) (on : Nat) : Bool := (on == x.plan.point) == (x.plan.dir == .forward)

/-- A window that a step leaves does not contain the new position (R62, R70). -/
theorem left_outside {x : Axis} {on off : Nat} (distinct : on ≠ off)
    (onBelow : on < x.modulus) (offBelow : off < x.modulus) (at_ : on = x.plan.point ∨ off = x.plan.point)
    (left : x.entersWindow on = false) : windowContains on off x.plan.newPosition = false := by
  unfold Axis.entersWindow Axis.plan at left
  unfold Axis.plan at at_ ⊢
  unfold windowContains
  by_cases forward : 0 < x.backlog
  · simp only [forward, if_true, beq_self_eq_true] at left at_ ⊢
    generalize (if x.position + 1 < x.modulus then x.position + 1 else 0) = q at left at_ ⊢
    have passed : on ≠ q := by simpa using left
    have offPoint : off = q := at_.resolve_left passed
    subst offPoint
    split <;> simp
  · simp only [forward, if_false] at left at_ ⊢
    have onPoint : on = x.position := by simpa using left
    subst onPoint
    split
    · split <;> simp <;> omega
    · split
      · split <;> simp <;> omega
      · rfl

theorem entersWindow_iff {x : Axis} (inside : x.position < x.modulus) {on off : Nat} (distinct : on ≠ off)
    (at_ : on = x.stepPoint ∨ off = x.stepPoint) :
    x.entersWindow on = true ↔ if 0 < x.backlog then on = x.stepPoint else off = x.stepPoint := by
  unfold Axis.entersWindow
  rw [plan_point inside, plan_dir]
  by_cases forward : 0 < x.backlog
  · simp [Axis.stepDir, forward]
  · have other : on ≠ x.stepPoint ↔ off = x.stepPoint :=
      ⟨at_.resolve_left, fun off on => distinct (on.trans off.symm)⟩
    simp only [Axis.stepDir, forward, if_false]
    rw [← other]
    simp

section
variable {s : State} {a : AxisId} {h : Nat} {e : Entry} {ok : Bool} {r : Run}

theorem boundedSlot_entry (entered : Bool) (revolution : BitVec 16) (dir : FireDir) :
    (e.boundedSlot ok entered r revolution dir).entry? = some e := by
  unfold Entry.boundedSlot
  split
  · rfl
  · split
    · rfl
    · split <;> rfl

/-- A settle leaves what part 4 gives a window, unless it is left and yet contains the position (R73). -/
theorem calmed_boundedSlot {t : State} {o : OutId} {off : Nat} (window : e.action = .window o off) {entered : Bool}
    (outside : entered = false → t.inWindow e off = false) (revolution : BitVec 16) (dir : FireDir) :
    t.Calmed (e.boundedSlot ok entered r revolution dir) := by
  have alone {r' : Run} (calm : r'.activity = .idle → r'.spent = false → t.inWindow e off = false) :
      t.Calmed (.live e true r') := by
    rintro e' ok' r'' ⟨⟩
    refine ⟨rfl, fun o' off' window' idle unspent => ?_⟩
    rw [window] at window'
    cases window'
    exact calm idle unspent
  unfold Entry.boundedSlot
  split
  · rintro e' ok' r' ⟨⟩
  · split
    · next left => exact alone (fun _ _ => outside left)
    · split
      · exact alone (fun idle _ => by simp [fireLeaves] at idle)
      · next stays => exact alone (fun idle unspent => absurd ⟨idle, unspent⟩ stays)

/-- A WINDOW with a boundary at the step point, after part 4 (R68). -/
theorem crossed_slot_bounded (judges : s.Judges a h e ok r) (referenced : (s.axis a).referenced = true)
    (below : h < Config.slotCount) (own : e.axis = a) {o : OutId} {off : Nat} (window : e.action = .window o off)
    (at_ : (s.advanced a).effOn e = (s.axis a).plan.point ∨ (s.advanced a).effective e off = (s.axis a).plan.point) :
    (s.crossed a).slot h = e.boundedSlot ok ((s.axis a).entersWindow ((s.advanced a).effOn e)) r
      ((s.advanced a).axis a).revolution (s.axis a).plan.dir := by
  let point := (s.axis a).plan.point
  let dir := (s.axis a).plan.dir
  have near := crossings_near (s.advanced a) a point dir
  have record := near.axis a
  have unlisted : h ∉ (s.advanced a).crossList a point := by
    rw [mem_crossList below judges.live own]
    simp [isWindow_of_action window]
  have bounded := boundaries_slot_self (s := (s.advanced a).crossings a point dir) (point := point) (dir := dir) below
    ((crossings_slot_other unlisted judges.free).trans judges.live) own (by rw [record]; exact judges.referenced)
    (by rw [record]; exact judges.working) window (by simp only [State.effOn, near.effective]; exact at_)
    (crossings_free judges.free)
  have enters : ((s.advanced a).crossings a point dir).enters e point dir
      = (s.axis a).entersWindow ((s.advanced a).effOn e) := by
    simp only [State.enters, State.effOn, near.effective]
    rfl
  rw [enters, record] at bounded
  exact (congrArg (fun t : State => t.slot h) (crossed_of_referenced referenced)).trans bounded

/-- The settle of the step finds nothing to do on a WINDOW with a boundary at the step point (R74). -/
theorem settled_slot_bounded (judges : s.Judges a h e ok r) (free : Free a s) (referenced : (s.axis a).referenced = true)
    (inside : (s.axis a).position < (s.axis a).modulus) (below : h < Config.slotCount) (own : e.axis = a) {o : OutId}
    {off : Nat} (window : e.action = .window o off) (distinct : (s.advanced a).effOn e ≠ (s.advanced a).effective e off)
    (at_ : (s.advanced a).effOn e = (s.axis a).plan.point ∨ (s.advanced a).effective e off = (s.axis a).plan.point) :
    (s.settled a).slot h = e.boundedSlot ok ((s.axis a).entersWindow ((s.advanced a).effOn e)) r
      ((s.advanced a).axis a).revolution (s.axis a).plan.dir := by
  have crossed := crossed_slot_bounded judges referenced below own window at_
  rw [settled_slot_calmed free, crossed]
  rw [crossed]
  refine calmed_boundedSlot window (fun left => ?_) _ _
  have near : State.Near (s.advanced a) (s.crossed a) := by
    rw [crossed_of_referenced referenced]
    exact (crossings_near _ a _ _).trans (boundaries_near _ a _ _)
  have fields := turned_advance_eq (s.axis a) inside
  have position : (((s.advanced a).axis e.axis)).position = (s.axis a).plan.newPosition := by
    rw [own, judges.record, fields, plan_newPosition inside]
  have modulus : ((s.advanced a).axis e.axis).modulus = (s.axis a).modulus := by rw [own, judges.record, fields]
  have positive : 0 < (s.axis a).modulus := by omega
  rw [near.inWindow, State.inWindow, position]
  exact left_outside distinct (effective_lt modulus positive _) (effective_lt modulus positive _) at_ left

end

end Sys2Proof.Machine

open Sys2Proof Sys2Proof.Machine

/-- Settles O26: a WINDOW in force has one turn in part 4, and the settle finds it ACTIVE, spent or left. -/
theorem windowsAreEnteredAndLeft : Obligations.WindowsAreEnteredAndLeft := by
  unfold Obligations.WindowsAreEnteredAndLeft
  intro s a h e ok r o off x quiet keeps referenced below force own window
  have inside : x.position < x.modulus := inside_of_keeps keeps
  have free := free_ahead quiet
  have force' := inForce_ahead force
  have judges := judges_of_inForce (s := s.ahead []) free inside (stepping_of_keeps keeps) (counts_of_keeps keeps)
    referenced below force' own
  have revolution : (((s.ahead []).advanced a).axis a).revolution = x.stepRevolution := judges.revolution inside
  refine ⟨_, execStep_quiet quiet (stepping_of_keeps keeps) (counts_of_keeps keeps), ?_⟩
  have effective : ((s.ahead []).stepped a).effective e = ((s.ahead []).advanced a).effective e :=
    stepped_effective (s := s.ahead []) free keeps force' own
  have same : ((((s.ahead []).stepped a).ahead s.stops).effective e) = ((s.ahead []).advanced a).effective e := effective
  simp only [State.effOn, same]
  intro distinct at_
  have settled := settled_slot_bounded judges free referenced inside below own window distinct
    (at_.imp (fun on => on.trans (plan_point inside).symm) (fun off => off.trans (plan_point inside).symm))
  have slot : ((((s.ahead []).stepped a).ahead s.stops).slot h)
      = e.boundedSlot ok (x.entersWindow (((s.ahead []).advanced a).effOn e)) r x.stepRevolution x.stepDir := by
    rw [ahead_slot, stepped_slot (s := s.ahead []) free keeps below force' (by rw [settled]; exact boundedSlot_entry _ _ _),
      settled, revolution]
    exact congrArg (e.boundedSlot ok _ r _) (plan_dir x)
  have entered_iff : x.entersWindow (((s.ahead []).advanced a).effOn e) = true ↔ if 0 < x.backlog
      then ((s.ahead []).advanced a).effOn e = x.stepPoint else ((s.ahead []).advanced a).effective e off = x.stepPoint :=
    entersWindow_iff inside distinct at_
  rw [slot, Entry.boundedSlot]
  refine ⟨fun inconsistent => if_pos inconsistent, fun consistent enters idle unspent => ?_,
    fun consistent enters stays => ?_, fun consistent leaves => ?_⟩
  · rw [if_neg (by simp [consistent]), if_neg (by simp [entered_iff.2 enters]), if_pos ⟨idle, unspent⟩]
  · rw [if_neg (by simp [consistent]), if_neg (by simp [entered_iff.2 enters]), if_neg]
    rintro ⟨idle, unspent⟩
    rcases stays with active | spent
    · exact active idle
    · rw [spent] at unspent; cases unspent
  · rw [if_neg (by simp [consistent]), if_pos]
    rw [Bool.eq_false_iff]
    exact fun enters => leaves (entered_iff.1 enters)

end

section
/-! SUPPORT. The source of an axis has no part in a step but in the loss of the reference at its halt (R39): the parts of a
step before its end commute with a change of the source. -/

namespace Sys2Proof.Machine

/-- The state with another source of an axis. -/
def State.sourced (s : State) (a : AxisId) (src : Source) : State := s.setAxis a { s.axis a with source := src }

/-- An operation that commutes with a change of the source of axis `a`. -/
def SourceBlind (a : AxisId) (src : Source) (f : State → State) : Prop := ∀ s, f (s.sourced a src) = (f s).sourced a src

section
variable {a : AxisId} {src : Source}

/-! ### What does not show the source -/

theorem sourced_axis_self (s : State) : (s.sourced a src).axis a = { s.axis a with source := src } :=
  State.setAxis_axis_self _ _ _

/-- A view of the axis records that leaves out the source. -/
theorem sourced_view {α : Type} {f : Axis → α} (blind : ∀ x : Axis, f { x with source := src } = f x) (s : State)
    (b : AxisId) : f ((s.sourced a src).axis b) = f (s.axis b) := by
  unfold State.sourced
  rw [State.setAxis_axis]
  split
  · next same => subst same; exact blind _
  · rfl

theorem sourced_effective (s : State) : (s.sourced a src).effective = s.effective := by
  funext e p
  show effectivePoint ((s.sourced a src).axis e.axis).modulus (s.leadFor e) p = _
  rw [sourced_view (f := Axis.modulus) (fun _ => rfl)]
  rfl

theorem sourced_effOn (s : State) : (s.sourced a src).effOn = s.effOn := by
  funext e
  unfold State.effOn
  rw [sourced_effective]

theorem sourced_effOff (s : State) : (s.sourced a src).effOff = s.effOff := by
  funext e
  unfold State.effOff
  rw [sourced_effective]

theorem sourced_inWindow (s : State) : (s.sourced a src).inWindow = s.inWindow := by
  funext e off
  unfold State.inWindow
  rw [sourced_effective, sourced_effOn, sourced_view (f := Axis.position) (fun _ => rfl)]

theorem sourced_order (s : State) (b : AxisId) : (s.sourced a src).order b = s.order b := by
  have keys : (s.sourced a src).key = s.key := by
    funext h
    unfold State.key State.keyPoint
    rw [sourced_effOn]
    rfl
  unfold State.order
  rw [keys]
  rfl

theorem sourced_liveInOrder (s : State) (b : AxisId) (p : Entry → Bool) :
    (s.sourced a src).liveInOrder b p = s.liveInOrder b p := by
  unfold State.liveInOrder
  rw [sourced_order]
  rfl

theorem sourced_judged (s : State) (b : AxisId) (h : Nat) : (s.sourced a src).judged b h = s.judged b h := by
  unfold State.judged
  rw [sourced_view (f := Axis.referenced) (fun _ => rfl), sourced_view (f := Axis.state) (fun _ => rfl)]
  rfl

/-! ### Operations that do not show it -/

theorem SourceBlind.ite {f g : State → State} {c : State → Prop} [∀ s, Decidable (c s)]
    (same : ∀ s, c (s.sourced a src) ↔ c s) (hf : SourceBlind a src f) (hg : SourceBlind a src g) :
    SourceBlind a src (fun s => if c s then f s else g s) := by
  intro s
  by_cases h : c s
  · simp only [if_pos h, if_pos ((same s).2 h)]; exact hf s
  · simp only [if_neg h, if_neg (fun k => h ((same s).1 k))]; exact hg s

theorem SourceBlind.then {f g : State → State} (hf : SourceBlind a src f) (hg : SourceBlind a src g) :
    SourceBlind a src (fun s => g (f s)) := fun s => (congrArg g (hf s)).trans (hg (f s))

theorem SourceBlind.foldl {α : Type} {f : State → α → State} (h : ∀ x, SourceBlind a src (fun s => f s x)) (xs : List α) :
    SourceBlind a src (fun s => xs.foldl f s) := by
  induction xs with
  | nil => exact fun _ => rfl
  | cons x xs ih => exact SourceBlind.then (h x) ih

theorem countUpFor_sourced (e : Entry) : SourceBlind a src (fun s => s.countUpFor e) := by
  intro s
  simp only [State.countUpFor]
  cases e.output <;> rfl

theorem endActivity_sourced (h : Nat) : SourceBlind a src (fun s => s.endActivity h) := by
  intro s
  simp only [State.endActivity, show (s.sourced a src).slot h = s.slot h from rfl]
  cases s.slot h with
  | live e ok r =>
    obtain ⟨act, spent, log⟩ := r
    cases act with
    | idle => rfl
    | active d =>
      simp only [State.countDownFor]
      cases e.output <;> rfl
  | _ => rfl

theorem hand_sourced (h : Nat) : SourceBlind a src (fun s => s.hand h) := by
  intro s
  simp only [State.hand, show (s.sourced a src).slot h = s.slot h from rfl]
  cases s.slot h <;> rfl

theorem reportFault_sourced (cause : FaultCause) (b : AxisId) (p : Nat) (rev : BitVec 16) :
    SourceBlind a src (fun s => s.reportFault cause b p rev) := by
  intro s
  simp only [State.reportFault, show (s.sourced a src).report = s.report from rfl]
  cases s.report <;> rfl

theorem runClaim_sourced (t : Task) : SourceBlind a src (fun s => s.runClaim t) := by
  intro s
  cases t with
  | hand h => exact hand_sourced h s
  | fenceReport h b p rev => exact reportFault_sourced (.entryCheck h) b p rev s
  | _ => rfl

theorem takeVia_sourced {run : State → Task → State} {t : Task} (blind : SourceBlind a src (fun s => run s t)) (b : AxisId) :
    SourceBlind a src (fun s => s.takeVia run b t) :=
  SourceBlind.ite (c := fun s => (s.busy b || t.stop?.any (fun p => s.stops.contains p)) = true)
    (fun _ => Iff.rfl) (fun _ => rfl) blind

theorem claim_sourced (b : AxisId) (t : Task) : SourceBlind a src (fun s => State.claim b s t) :=
  takeVia_sourced (runClaim_sourced t) b

theorem takeHandings_sourced (h : Nat) : SourceBlind a src (fun s => s.takeHandings h) := by
  refine SourceBlind.foldl (f := State.takeHanding h) (fun b s => ?_) axisIds
  simp only [State.takeHanding, show (s.sourced a src).channel b = s.channel b from rfl]
  split
  · split
    · next rest inverted _ _ => exact hand_sourced h (s.setChannel b ⟨rest, inverted⟩)
    · rfl
  · rfl

theorem fenceSlot_sourced (h : Nat) (e : Entry) (log : FireLog) : SourceBlind a src (fun s => s.fenceSlot h e log) :=
  fun s => congrArg (fun t : State => (t.setSlot h (.fenced e false log)).setList e.axis ((s.list e.axis).drop h))
    (SourceBlind.ite (c := fun s => (s.slot h).lifecycle = .staged) (f := fun s => s.takeHandings h) (g := fun s => s)
      (fun _ => Iff.rfl) (takeHandings_sourced h) (fun _ => rfl) s)

theorem beginFence_sourced (s : State) (h : Nat) :
    (s.sourced a src).beginFence h = ((s.beginFence h).1.sourced a src, (s.beginFence h).2) := by
  simp only [State.beginFence, show (s.sourced a src).slot h = s.slot h from rfl,
    sourced_view (a := a) (src := src) (f := Axis.position) (fun _ => rfl),
    sourced_view (a := a) (src := src) (f := Axis.revolution) (fun _ => rfl)]
  cases (s.slot h).toFence with
  | none => rfl
  | some p => exact congrArg (fun t => (t, _)) (fenceSlot_sourced h p.1 p.2.2 s)

theorem fenceFrom_sourced (b : AxisId) (h : Nat) : SourceBlind a src (fun s => s.fenceFrom b h) := by
  intro s
  simp only [State.fenceFrom, beginFence_sourced]
  exact SourceBlind.foldl (claim_sourced b) (s.beginFence h).2 (s.beginFence h).1

theorem fire_sourced (b : AxisId) (h : Nat) (dir : FireDir) (act : Activity) :
    SourceBlind a src (fun s => s.fire b h dir act) := by
  intro s
  simp only [State.fire, show (s.sourced a src).slot h = s.slot h from rfl]
  cases s.slot h with
  | live e ok r =>
    simp only [sourced_view (a := a) (src := src) (f := Axis.revolution) (fun _ => rfl)]
    split
    · exact claim_sourced b (.hand h) (s.setSlot h (.live e ok (r.fired e (s.axis e.axis).revolution dir act)))
    · rfl
  | _ => rfl

theorem activate_sourced (b : AxisId) (h : Nat) (e : Entry) (dir : FireDir) (timer : Option Nat) :
    SourceBlind a src (fun s => s.activate b h e dir timer) :=
  SourceBlind.then (countUpFor_sourced e) (fire_sourced b h dir (.active timer))

theorem judge_sourced (b : AxisId) (h : Nat) {act : State → Entry → Run → State}
    (blind : ∀ e r, SourceBlind a src (fun s => act s e r)) : SourceBlind a src (fun s => s.judge b h (act s)) := by
  intro s
  simp only [State.judge, sourced_judged]
  cases s.judged b h with
  | none => rfl
  | some p =>
    obtain ⟨e, ok, r⟩ := p
    cases ok with
    | true => exact blind e r s
    | false => exact fenceFrom_sourced b h s

theorem settleEntry_sourced (b : AxisId) (h : Nat) (e : Entry) (r : Run) :
    SourceBlind a src (fun s => s.settleEntry b h e r) := by
  unfold State.settleEntry
  cases e.action with
  | window o off =>
    exact SourceBlind.ite (c := fun s => r.activity = .idle ∧ r.spent = false ∧ s.inWindow e off = true)
      (fun s => by rw [sourced_inWindow]) (activate_sourced b h e .none none) (fun _ => rfl)
  | _ => exact fun _ => rfl

theorem invertOnce_sourced (b : AxisId) (o : OutId) : SourceBlind a src (fun s => s.invertOnce b o) :=
  SourceBlind.ite (c := fun s => o ∈ (s.channel b).inverted) (fun _ => Iff.rfl) (fun _ => rfl) (fun _ => rfl)

theorem crossFire_sourced (b : AxisId) (h : Nat) (e : Entry) (r : Run) (dir : FireDir) :
    SourceBlind a src (fun s => s.crossFire b h e r dir) := by
  unfold State.crossFire
  cases e.action with
  | window o off => exact fun _ => rfl
  | pulse o d q =>
    exact SourceBlind.ite (c := fun _ => r.activity = .idle) (fun _ => Iff.rfl) (activate_sourced b h e dir (some d))
      (fire_sourced b h dir _)
  | toggle o q => exact SourceBlind.then (invertOnce_sourced b o) (fire_sourced b h dir .idle)
  | mark q => exact fire_sourced b h dir .idle

theorem cross_sourced (b : AxisId) (h : Nat) (dir : FireDir) : SourceBlind a src (fun s => s.cross b h dir) :=
  judge_sourced b h (act := fun s e r =>
    if (e.qualifier?.any (fun q : Qualifier => q.admits dir)) ∧ r.spent = false then s.crossFire b h e r dir else s)
    fun e r =>
      SourceBlind.ite (c := fun _ => (e.qualifier?.any (fun q : Qualifier => q.admits dir)) ∧ r.spent = false)
        (fun _ => Iff.rfl) (crossFire_sourced b h e r dir) (fun _ => rfl)

theorem boundary_sourced (b : AxisId) (h point : Nat) (dir : FireDir) :
    SourceBlind a src (fun s => s.boundary b h point dir) :=
  judge_sourced b h (act := fun s e r =>
    match e.action with
    | .window _ _ =>
      if s.enters e point dir then
        if r.activity = .idle ∧ r.spent = false then s.activate b h e dir none else s
      else s.endActivity h
    | _ => s) fun e r => by
      cases e.action with
      | window o off =>
        exact SourceBlind.ite (c := fun s => s.enters e point dir = true)
          (fun s => by unfold State.enters; rw [sourced_effOn])
          (SourceBlind.ite (c := fun _ => r.activity = .idle ∧ r.spent = false) (fun _ => Iff.rfl)
            (activate_sourced b h e dir none) (fun _ => rfl)) (endActivity_sourced h)
      | _ => exact fun _ => rfl

theorem settle_sourced (b : AxisId) (h : Nat) : SourceBlind a src (fun s => s.settle b h) :=
  judge_sourced b h (settleEntry_sourced b h)

/-- The turns of one kind, of a step or a settle. -/
theorem takeEntries_sourced (b : AxisId) {f : Nat → Task} (blind : ∀ h, SourceBlind a src (fun s => s.runEntry b (f h)))
    (hs : List Nat) : SourceBlind a src (fun s => s.takeEntries b (hs.map f)) := by
  intro s
  simp only [State.takeEntries, List.foldl_map]
  exact SourceBlind.foldl (f := fun (t : State) h => t.takeVia (State.runEntry b) b (f h))
    (fun h => takeVia_sourced (blind h) b) hs s

/-! ### The parts of a step -/

theorem crossings_sourced (b : AxisId) (point : Nat) (dir : FireDir) :
    SourceBlind a src (fun s => s.crossings b point dir) := by
  intro s
  simp only [crossings_eq, State.crossList, sourced_liveInOrder, sourced_effOn]
  exact takeEntries_sourced b (fun h => cross_sourced b h dir) _ (s.uninverted b)

theorem boundaries_sourced (b : AxisId) (point : Nat) (dir : FireDir) :
    SourceBlind a src (fun s => s.boundaries b point dir) := by
  intro s
  simp only [boundaries_eq, State.boundaryList, sourced_liveInOrder, sourced_effOn, sourced_effOff]
  exact takeEntries_sourced b (fun h => boundary_sourced b h point dir) _ (s.uninverted b)

theorem settleApplied_sourced (b : AxisId) (items : List Item) :
    SourceBlind a src (fun s => s.settleApplied b items) := by
  intro s
  simp only [State.settleApplied, State.settleAll, sourced_order]
  exact takeEntries_sourced b (settle_sourced b) _ s

theorem applyItem_sourced (i : Item) : SourceBlind a src (fun s => s.applyItem i) := by
  intro s
  cases i with
  | place h =>
    have taken := takeHandings_sourced (a := a) (src := src) h s
    simp only at taken
    simp only [State.applyItem, State.applyPlace, show (s.sourced a src).slot h = s.slot h from rfl, taken]
    generalize s.takeHandings h = t
    cases s.slot h <;> rfl
  | alter h v =>
    have ended := endActivity_sourced (a := a) (src := src) h s
    simp only at ended
    simp only [State.applyItem, State.applyAlter, show (s.sourced a src).slot h = s.slot h from rfl, ended]
    generalize s.endActivity h = t
    cases s.slot h <;> rfl
  | retire h =>
    have ended := endActivity_sourced (a := a) (src := src) h s
    simp only at ended
    simp only [State.applyItem, State.applyRetire, show (s.sourced a src).slot h = s.slot h from rfl, ended]
    generalize s.endActivity h = t
    cases s.slot h <;> rfl
  | setLead o lead =>
    have ended := SourceBlind.foldl (a := a) (src := src) (f := State.endActivity) endActivity_sourced (s.liveOn o) s
    simp only [State.applyItem, State.applyLead, show (s.sourced a src).liveOn o = s.liveOn o from rfl] at ended ⊢
    rw [ended]
    generalize (s.liveOn o).foldl State.endActivity s = t
    rfl

theorem applyNext_sourced (b : AxisId) : SourceBlind a src (fun s => s.applyNext b) := by
  intro s
  simp only [State.applyNext, show (s.sourced a src).list b = s.list b from rfl]
  cases (s.list b).items with
  | nil => rfl
  | cons i more =>
    simp only [show (s.sourced a src).itemFails i = s.itemFails i from rfl]
    split
    · cases i.handle? with
      | none => rfl
      | some h =>
        exact congrArg (fun t : State => t.setList b { t.list b with items := more }) (fenceFrom_sourced b h s)
    · exact applyItem_sourced i (s.setList b { s.list b with items := more })

theorem applyClosed_sourced (b : AxisId) (announced : Bool) : SourceBlind a src (fun s => s.applyClosed b announced) := by
  intro s
  have items := SourceBlind.foldl (a := a) (src := src) (f := fun (t : State) (_ : Item) => if t.busy b then t else t.applyNext b)
    (fun _ => SourceBlind.ite (c := fun t => t.busy b = true) (fun _ => Iff.rfl) (fun _ => rfl) (applyNext_sourced b))
    (s.list b).items s
  simp only at items
  simp only [State.applyClosed, show (s.sourced a src).list b = s.list b from rfl, items]
  split
  · refine SourceBlind.ite (c := fun t => t.busy b = true) (f := fun t => t.defer b (.application announced))
      (g := fun t => t.endApplication b announced) (fun _ => Iff.rfl) (fun _ => rfl) (fun t => ?_) _
    cases announced <;> rfl
  · rfl

theorem releaseAxis_sourced (b : AxisId) : SourceBlind a src (fun s => s.releaseAxis b) := by
  refine SourceBlind.ite (c := fun s => s.condition = .releasing) (fun _ => Iff.rfl) ?_ (fun _ => rfl)
  refine SourceBlind.ite (c := fun s => s.outputs.toList.any (Output.released (fun o => o == some b)) = true)
    (f := fun s => State.finishRelease { s with outputs := s.outputs.map (Output.release (fun o => o == some b)) })
    (fun _ => Iff.rfl) (fun s => ?_) (fun _ => rfl)
  exact SourceBlind.ite (c := fun s => s.anySafeHold = true) (f := fun s => s)
    (g := fun s => ({ s with condition := .normal } : State).latch reasonSafeReleased) (fun _ => Iff.rfl) (fun _ => rfl)
    (fun _ => rfl) { s with outputs := s.outputs.map (Output.release (fun o => o == some b)) }

theorem setAxis_sourced (f : Axis → Axis) (blind : ∀ x : Axis, f { x with source := src } = { f x with source := src }) :
    SourceBlind a src (fun s => s.setAxis a (f (s.axis a))) := by
  intro s
  unfold State.sourced
  simp only [State.setAxis_axis_self, State.setAxis_setAxis, blind]

theorem advance_sourced : SourceBlind a src (fun s => s.advance a) := by
  refine SourceBlind.ite (c := fun s => (s.axis a).stepping ∧ (s.axis a).backlog ≠ 0) (fun s => ?_)
    (f := fun s => s.setAxis a (s.axis a).advance) (g := fun s => s) (setAxis_sourced Axis.advance (fun _ => rfl))
    (fun _ => rfl)
  rw [sourced_axis_self]
  rfl

theorem clearSpent_sourced (h : Nat) : SourceBlind a src (fun s => s.clearSpent h) := by
  intro s
  simp only [State.clearSpent, show (s.sourced a src).slot h = s.slot h from rfl]
  cases s.slot h <;> rfl

theorem plan_sourced (s : State) : ((s.sourced a src).axis a).plan = (s.axis a).plan :=
  sourced_view (f := Axis.plan) (fun _ => rfl) s a

theorem begun_sourced : SourceBlind a src (fun s => s.begun a) := by
  intro s
  simp only [State.begun, plan_sourced]
  split
  · have counted := setAxis_sourced (a := a) (src := src) (fun x => x.wrapRevolution (s.axis a).plan.dir) (fun _ => rfl) s
    simp only at counted
    simp only [State.beginWrap, counted]
    exact SourceBlind.foldl clearSpent_sourced _ _
  · rfl

theorem wrapped_sourced : SourceBlind a src (fun s => s.wrapped a) := by
  intro s
  have begun := begun_sourced (a := a) (src := src) s
  simp only at begun
  simp only [State.wrapped, plan_sourced, begun]
  split
  · exact SourceBlind.then (applyClosed_sourced a true) (releaseAxis_sourced a) (s.begun a)
  · rfl

theorem advanced_sourced : SourceBlind a src (fun s => s.advanced a) := SourceBlind.then wrapped_sourced advance_sourced

theorem crossed_sourced : SourceBlind a src (fun s => s.crossed a) := by
  intro s
  have advanced := advanced_sourced (a := a) (src := src) s
  simp only at advanced
  simp only [State.crossed, plan_sourced, advanced, sourced_view (a := a) (src := src) (f := Axis.referenced) (fun _ => rfl)]
  split
  · exact SourceBlind.then (crossings_sourced a _ _) (boundaries_sourced a _ _) (s.advanced a)
  · rfl

/-- The parts of a step before its end do not show the source of the axis. -/
theorem settled_sourced : SourceBlind a src (fun s => s.settled a) := by
  intro s
  have crossed := crossed_sourced (a := a) (src := src) s
  simp only at crossed
  simp only [State.settled, plan_sourced, crossed, sourced_view (a := a) (src := src) (f := Axis.referenced) (fun _ => rfl)]
  split
  · exact settleApplied_sourced a _ (s.crossed a)
  · rfl

end

end Sys2Proof.Machine
end

section
/-! SUPPORT. The halt of an ENCODER axis is that of a STEPPED one, and then the loss of its reference and its activity (R39):
a silent end commutes with the release of an axis and with the outcome of HALT_AXIS. -/

namespace Sys2Proof.Machine

section
variable {s : State} {a : AxisId}

/-! ### What a silent end commutes with -/

/-- A silent end commutes with what leaves slots and axis records alone and commutes with the end of one activity. -/
theorem silenceAxis_commutes {f : State → State} (slots : ∀ s h, (f s).slot h = s.slot h)
    (axis : ∀ s b, (f s).axis b = s.axis b) (sets : ∀ s b x, (f s).setAxis b x = f (s.setAxis b x))
    (ends : ∀ s h, (f s).endActivity h = f (s.endActivity h)) (s : State) (a : AxisId) :
    (f s).silenceAxis a = f (s.silenceAxis a) := by
  have turns : ∀ (hs : List Nat) (s : State), hs.foldl State.endActivity (f s) = f (hs.foldl State.endActivity s) := by
    intro hs
    induction hs with
    | nil => exact fun _ => rfl
    | cons h hs ih => exact fun s => by rw [List.foldl_cons, List.foldl_cons, ends, ih]
  have live : (f s).liveOf a = s.liveOf a := by simp only [State.liveOf, slots]
  simp only [State.silenceAxis, live, turns, axis, sets]

/-- The end of an activity commutes with an operation that leaves the slots alone and commutes with writes of slots and of
counts. -/
theorem endActivity_commutes {f : State → State} (slots : ∀ s h, (f s).slot h = s.slot h)
    (writes : ∀ s h v, (f s).setSlot h v = f (s.setSlot h v)) (counts : ∀ s e, (f s).countDownFor e = f (s.countDownFor e))
    (s : State) (h : Nat) : (f s).endActivity h = f (s.endActivity h) := by
  unfold State.endActivity
  rw [slots]
  split
  · split
    · rfl
    · rw [writes, counts]
  · rfl

theorem silenceAxis_ahead (s : State) (l : List StopPoint) (a : AxisId) :
    (s.ahead l).silenceAxis a = (s.silenceAxis a).ahead l :=
  silenceAxis_commutes (f := fun s => s.ahead l) (fun _ _ => rfl) (fun _ _ => rfl) (fun _ _ _ => rfl)
    (fun s h => endActivity_ahead s l h) s a

/-- The outcome of HALT_AXIS commutes with what leaves the port alone. -/
theorem haltReached_commutes {g : State → State} (port : (g s).port = s.port)
    (sets : ∀ p, g { s with port := p } = { g s with port := p }) (a : AxisId) :
    g (s.haltReached a) = (g s).haltReached a := by
  unfold State.haltReached
  rw [port]
  split
  · exact sets _
  · rfl

theorem silenceAxis_haltReached (s : State) (a : AxisId) :
    (s.haltReached a).silenceAxis a = (s.silenceAxis a).haltReached a := by
  refine silenceAxis_commutes (f := fun s => s.haltReached a) (fun s h => haltReached_slot s a h)
    (fun s b => axis_of_axes (haltReached_axes s a) b)
    (fun s b x => haltReached_commutes (g := fun s => s.setAxis b x) rfl (fun _ => rfl) a)
    (endActivity_commutes (fun s h => haltReached_slot s a h)
      (fun s h v => haltReached_commutes (g := fun s => s.setSlot h v) rfl (fun _ => rfl) a) (fun s e => ?_)) s a
  unfold State.countDownFor
  cases e.output with
  | none => rfl
  | some o =>
    exact haltReached_commutes (g := fun s => s.setOutput o ((s.output o).countDown e.kind)) rfl (fun _ => rfl) a

/-! ### The release of an axis -/

theorem any_setOutput {o : OutId} {y : Output} {p : Output → Bool} (same : p y = p (s.output o)) :
    (s.setOutput o y).outputs.toList.any p = s.outputs.toList.any p := by
  have each (q : OutId) : p ((s.setOutput o y).output q) = p (s.output q) := by
    rw [State.setOutput_output]
    split
    · next eq => rw [same, eq]
    · rfl
  rw [Bool.eq_iff_iff, any_outputs, any_outputs]
  simp only [each]

theorem finishRelease_setOutput {o : OutId} {y : Output} (same : y.safeHold = (s.output o).safeHold) :
    (s.setOutput o y).finishRelease = s.finishRelease.setOutput o y := by
  have holds : (s.setOutput o y).anySafeHold = s.anySafeHold := any_setOutput (p := Output.safeHold) same
  unfold State.finishRelease
  rw [holds]
  split <;> rfl

theorem release_countDown (p : Option AxisId → Bool) (x : Output) (k : Kind) :
    (x.countDown k).release p = (x.release p).countDown k := by
  have released : (x.countDown k).released p = x.released p := by cases k <;> rfl
  unfold Output.release
  rw [released]
  cases x.released p <;> cases k <;> rfl

/-- A count commutes with the release of an axis. -/
theorem releaseAxis_setOutput (s : State) (a : AxisId) (o : OutId) (k : Kind) :
    (s.releaseAxis a).setOutput o (((s.releaseAxis a).output o).countDown k)
      = (s.setOutput o ((s.output o).countDown k)).releaseAxis a := by
  have held : ((s.output o).countDown k).safeHold = (s.output o).safeHold := (held_of_tame (countDown_tame _ k)).1
  have released : ((s.output o).countDown k).released (fun b => b == some a)
      = (s.output o).released (fun b => b == some a) := by cases k <;> rfl
  unfold State.releaseAxis State.releaseWhere
  rw [any_setOutput released]
  by_cases releasing : s.condition = .releasing
  · rw [if_pos releasing, if_pos (show (s.setOutput o _).condition = .releasing from releasing)]
    split
    · let freed : State := { s with outputs := s.outputs.map (Output.release (fun b => b == some a)) }
      have own : freed.finishRelease.output o = (s.output o).release (fun b => b == some a) :=
        (congrArg (fun v : Vector Output 32 => v[o]) (finishRelease_condition freed).2.2).trans (output_map s _ o)
      have counted : ({ s.setOutput o ((s.output o).countDown k) with
            outputs := (s.setOutput o ((s.output o).countDown k)).outputs.map (Output.release (fun b => b == some a)) } : State)
          = freed.setOutput o (((s.output o).release (fun b => b == some a)).countDown k) := by
        rw [← release_countDown]
        simp [freed, State.setOutput, Vector.map_set]
      rw [counted, finishRelease_setOutput]
      · exact congrArg (fun y : Output => freed.finishRelease.setOutput o (y.countDown k)) own
      · rw [output_map s _ o]
        exact (held_of_tame (countDown_tame _ k)).1
    · rfl
  · rw [if_neg releasing, if_neg (show ¬ (s.setOutput o _).condition = .releasing from releasing)]

/-- The release of an axis commutes with what leaves the condition, the outputs and the reasons alone. -/
theorem releaseAxis_commutes {g : State → State} (condition : (g s).condition = s.condition)
    (outputs : (g s).outputs = s.outputs) (latched : (g s).latched = s.latched)
    (sets : ∀ c v l, g { s with condition := c, outputs := v, latched := l }
      = { g s with condition := c, outputs := v, latched := l }) (a : AxisId) :
    g (s.releaseAxis a) = (g s).releaseAxis a := by
  unfold State.releaseAxis State.releaseWhere State.finishRelease State.latch
  rw [condition, outputs, latched]
  split
  · split
    · by_cases holds : (s.outputs.map (Output.release (fun b => b == some a))).toList.any Output.safeHold = true
      · have both {t : State} (same : t.outputs = s.outputs.map (Output.release (fun b => b == some a))) :
            t.anySafeHold = true := by rw [State.anySafeHold, same]; exact holds
        rw [if_pos (both rfl), if_pos (both rfl)]
        refine (sets s.condition _ s.latched).trans ?_
        rw [← condition, ← latched]
      · have neither {t : State} (same : t.outputs = s.outputs.map (Output.release (fun b => b == some a))) :
            ¬ t.anySafeHold = true := by rw [State.anySafeHold, same]; exact holds
        rw [if_neg (neither rfl), if_neg (neither rfl)]
        exact sets _ _ _
    · rfl
  · rfl

theorem silenceAxis_releaseAxis (s : State) (a : AxisId) :
    (s.releaseAxis a).silenceAxis a = (s.silenceAxis a).releaseAxis a := by
  refine silenceAxis_commutes (f := fun s => s.releaseAxis a) (fun s h => releaseAxis_slot s a h)
    (fun s b => axis_of_axes (releaseAxis_axes s a) b)
    (fun s b x => releaseAxis_commutes (g := fun s => s.setAxis b x) rfl rfl rfl (fun _ _ _ => rfl) a)
    (endActivity_commutes (fun s h => releaseAxis_slot s a h)
      (fun s h v => releaseAxis_commutes (g := fun s => s.setSlot h v) rfl rfl rfl (fun _ _ _ => rfl) a)
      (fun s e => ?_)) s a
  unfold State.countDownFor
  cases e.output with
  | none => rfl
  | some o => exact releaseAxis_setOutput s a o e.kind

/-! ### The halt -/

/-- With no closed list the entry into HALTED writes the record, ends the activity of an ENCODER axis, and releases (R39). -/
theorem reachHalted_open (free : Free a s) (opened : (s.list a).closed = false) :
    s.reachHalted a = ((s.halted a).releaseAxis a).haltReached a := by
  have list : ((s.halted a).list a).closed = false := by rw [list_of_lists (halted_lists s a)]; exact opened
  have none_ : (s.list a).toApply = [] := by simp [PendingList.toApply, opened]
  rw [reachHalted_free free, none_, applyClosed_open list, settleApplied_nil]

/-- An axis loses its reference and its activity, as an ENCODER axis at its halt (R39). -/
def State.unreferenced (s : State) (a : AxisId) : State :=
  (s.setAxis a { s.axis a with source := .encoder, referenced := false }).silenceAxis a

/-- An ENCODER axis with no closed list reaches HALTED as a STEPPED axis does, and loses its reference and its activity
(R39). -/
theorem reachHalted_encoder (free : Free a s) (encoder : (s.axis a).source = .encoder)
    (opened : (s.list a).closed = false) :
    s.reachHalted a = ((s.sourced a .stepped).reachHalted a).unreferenced a := by
  have plain : (s.sourced a .stepped).halted a = s.setAxis a { s.axis a with state := .halted, source := .stepped } := by
    rw [halted_plain (by rw [sourced_axis_self]; simp), sourced_axis_self]
    exact State.setAxis_setAxis s a _ _
  have halted : (s.setAxis a { s.axis a with state := .halted, source := .stepped }).unreferenced a = s.halted a := by
    unfold State.unreferenced
    rw [State.setAxis_axis_self, State.setAxis_setAxis, halted_encoder encoder]
    simp only [← encoder]
  rw [reachHalted_open free opened, reachHalted_open (s := s.sourced a .stepped) free opened, plain, ← halted]
  generalize s.setAxis a { s.axis a with state := .halted, source := .stepped } = v
  have record : (((v.releaseAxis a).haltReached a).axis a) = v.axis a := by
    rw [axis_of_axes (haltReached_axes _ a), axis_of_axes (releaseAxis_axes v a)]
  have writes (x : Axis) : ((v.releaseAxis a).haltReached a).setAxis a x = ((v.setAxis a x).releaseAxis a).haltReached a := by
    rw [← releaseAxis_commutes (g := fun s => s.setAxis a x) rfl rfl rfl (fun _ _ _ => rfl) a,
      ← haltReached_commutes (g := fun s => s.setAxis a x) rfl (fun _ => rfl) a]
  unfold State.unreferenced
  rw [record, writes, silenceAxis_haltReached, silenceAxis_releaseAxis]

end

end Sys2Proof.Machine
end

section
/-! SUPPORT. A step without a wrap up to its end: which items of the list and which entries parts 3 and 4 leave (R63, R68,
R160). -/

namespace Sys2Proof.Machine

section
variable {s : State} {a b : AxisId} {h : Nat} {i : Item}

/-! ### Which work drops no item -/

theorem countUpFor_lists (s : State) (e : Entry) : (s.countUpFor e).lists = s.lists := by
  unfold State.countUpFor; split <;> rfl

theorem claim_lists (a : AxisId) (s : State) (t : Task) : (State.claim a s t).lists = s.lists := by
  unfold State.claim State.takeVia; split
  · rfl
  · exact runClaim_lists s t

theorem fire_lists (s : State) (a : AxisId) (h : Nat) (dir : FireDir) (act : Activity) :
    (s.fire a h dir act).lists = s.lists := by
  unfold State.fire; split
  · simp only
    split
    · exact claim_lists a _ _
    · rfl
  · rfl

theorem activate_lists (s : State) (a : AxisId) (h : Nat) (e : Entry) (dir : FireDir) (timer : Option Nat) :
    (s.activate a h e dir timer).lists = s.lists := (fire_lists _ a h dir _).trans (countUpFor_lists s e)

theorem crossFire_lists (s : State) (a : AxisId) (h : Nat) (e : Entry) (r : Run) (dir : FireDir) :
    (s.crossFire a h e r dir).lists = s.lists := by
  unfold State.crossFire; split
  · rfl
  · split
    · exact activate_lists s a h e dir _
    · exact fire_lists s a h dir _
  · exact (fire_lists _ a h dir _).trans (invertOnce_lists s a _)
  · exact fire_lists s a h dir _

/-- A fence drops the items that name its entry, and no other (R160). -/
theorem fenceFrom_keeps_item (mem : i ∈ (s.list b).items) (unnamed : i.names h = false) :
    i ∈ ((s.fenceFrom a h).list b).items := by
  have begun : i ∈ ((s.beginFence h).1.list b).items := by
    unfold State.beginFence; split
    · rw [fenceSlot_list]
      split
      · next own =>
        rw [drop_items, own]
        exact List.mem_filter.2 ⟨mem, by simp [unnamed]⟩
      · exact mem
    · exact mem
  rw [State.fenceFrom, list_of_lists (foldl_keeps State.lists (State.claim a) (claim_lists a) _ _)]
  exact begun

theorem judge_keeps_item {act : Entry → Run → State} (keeps : ∀ e r, (act e r).lists = s.lists)
    (mem : i ∈ (s.list b).items) (unnamed : i.names h = false) : i ∈ ((s.judge a h act).list b).items := by
  unfold State.judge; split
  · exact mem
  · split
    · rw [list_of_lists (keeps _ _)]; exact mem
    · exact fenceFrom_keeps_item mem unnamed

theorem cross_keeps_item {dir : FireDir} (mem : i ∈ (s.list b).items) (unnamed : i.names h = false) :
    i ∈ ((s.runEntry a (.cross h dir)).list b).items := by
  refine judge_keeps_item (fun e r => ?_) mem unnamed
  split
  · exact crossFire_lists s a h e r dir
  · rfl

theorem boundary_keeps_item {point : Nat} {dir : FireDir} (mem : i ∈ (s.list b).items) (unnamed : i.names h = false) :
    i ∈ ((s.runEntry a (.boundary h point dir)).list b).items := by
  refine judge_keeps_item (fun e r => ?_) mem unnamed
  split
  · split
    · split
      · exact activate_lists s a h e dir none
      · rfl
    · exact endActivity_lists s h
  · rfl

/-- Turns drop no item but those that name their entries. -/
theorem turns_keep_item {f : Nat → Task}
    (keeps : ∀ (s : State) h, i ∈ (s.list b).items → i.names h = false → i ∈ ((s.runEntry a (f h)).list b).items)
    {hs : List Nat} (unnamed : ∀ h ∈ hs, i.names h = false) (mem : i ∈ (s.list b).items) (free : Free a s) :
    i ∈ ((s.takeEntries a (hs.map f)).list b).items := by
  rw [(takeEntries_free s _ free).1, List.foldl_map]
  exact foldl_keepsProp (P := fun t : State => i ∈ (t.list b).items) (f := fun t h => t.runEntry a (f h))
    (fun t h p unnamed => keeps t h p unnamed) hs unnamed mem

theorem crossings_keeps_item {point : Nat} {dir : FireDir} (unnamed : ∀ h ∈ s.crossList a point, i.names h = false)
    (mem : i ∈ (s.list b).items) (free : Free a s) : i ∈ ((s.crossings a point dir).list b).items :=
  turns_keep_item (fun _ _ => cross_keeps_item) unnamed mem (uninverted_free free)

theorem boundaries_keeps_item {point : Nat} {dir : FireDir} (unnamed : ∀ h ∈ s.boundaryList a point, i.names h = false)
    (mem : i ∈ (s.list b).items) (free : Free a s) : i ∈ ((s.boundaries a point dir).list b).items :=
  turns_keep_item (fun _ _ => boundary_keeps_item) unnamed mem (uninverted_free free)

/-! ### Which entries have no turn -/

/-- Whether a slot holds a LIVE entry of axis `a` that parts 3 and 4 of a step judge at this point (R63, R68). -/
def State.turnsAt (s : State) (a : AxisId) (point : Nat) (v : Slot) : Bool :=
  v.liveWith (fun e => e.axis == a && (s.effOn e == point || s.effOff e == some point))

theorem turnsAt_of_cross {point : Nat} (mem : h ∈ s.crossList a point) : s.turnsAt a point (s.slot h) = true := by
  have live := (mem_liveInOrder.1 mem).2
  unfold State.turnsAt
  cases held : s.slot h with
  | live e ok r =>
    rw [held] at live
    simp only [Slot.liveWith, Bool.and_eq_true, Bool.or_eq_true] at live ⊢
    exact ⟨live.1, .inl live.2.2⟩
  | _ => rw [held] at live; cases live

theorem turnsAt_of_boundary {point : Nat} (mem : h ∈ s.boundaryList a point) : s.turnsAt a point (s.slot h) = true := by
  have live := (mem_liveInOrder.1 mem).2
  unfold State.turnsAt
  cases held : s.slot h with
  | live e ok r =>
    rw [held] at live
    simp only [Slot.liveWith, Bool.and_eq_true] at live ⊢
    exact ⟨live.1, live.2.2⟩
  | _ => rw [held] at live; cases live

theorem turnsAt_of_effective {t : State} (same : t.effective = s.effective) : t.turnsAt = s.turnsAt := by
  funext a point v
  simp only [State.turnsAt, State.effOn, State.effOff, same]

/-- Without a wrap the work before the crossings moves the axis alone, and no effective point. -/
theorem advanced_effective (still : (s.axis a).plan.wrap = false) : (s.advanced a).effective = s.effective := by
  funext e
  have modulus : ((s.advanced a).axis e.axis).modulus = (s.axis e.axis).modulus := by
    rw [State.advanced, wrapped_plain still]
    by_cases own : e.axis = a
    · rw [own, (advance_worked a s).own.fixed]
    · rw [(advance_worked a s).others _ own]
  refine effective_eq modulus (fun o _ => ?_)
  rw [State.advanced, wrapped_plain still, State.output, advance_outputs]
  rfl

theorem settled_of_still (still : (s.axis a).plan.wrap = false) : s.settled a = s.crossed a := by
  unfold State.settled; rw [if_neg (by simp [still])]

/-- An entry that has no turn in a step without a wrap keeps its slot and its items (R63, R68). -/
theorem settled_untouched (free : Free a s) (still : (s.axis a).plan.wrap = false)
    (away : (s.axis a).referenced = false ∨ s.turnsAt a (s.axis a).plan.point (s.slot h) = false) :
    (s.settled a).slot h = s.slot h
      ∧ ∀ i ∈ (s.list a).items, (∀ k, k ≠ h → i.names k = false) → i ∈ ((s.settled a).list a).items := by
  have slot : (s.advanced a).slot h = s.slot h := by rw [State.advanced, advance_slot, wrapped_plain still]
  have list : (s.advanced a).list a = s.list a := by
    rw [State.advanced, list_of_lists (advance_lists _ a), wrapped_plain still]
  rw [settled_of_still still]
  cases referenced : (s.axis a).referenced with
  | false =>
    have same : s.crossed a = s.advanced a := if_neg (by simp [referenced])
    rw [same, list]
    exact ⟨slot, fun i m _ => m⟩
  | true =>
    have out : (s.advanced a).turnsAt a (s.axis a).plan.point (s.slot h) = false := by
      rw [turnsAt_of_effective (advanced_effective still)]
      exact away.resolve_left (by simp [referenced])
    let crossings := (s.advanced a).crossings a (s.axis a).plan.point (s.axis a).plan.dir
    have uncrossed : h ∉ (s.advanced a).crossList a (s.axis a).plan.point := by
      intro mem
      have at_ := turnsAt_of_cross mem
      rw [slot, out] at at_
      cases at_
    have kept : crossings.slot h = s.slot h := (crossings_slot_other uncrossed (advanced_free free)).trans slot
    have unbounded : h ∉ crossings.boundaryList a (s.axis a).plan.point := by
      intro mem
      have at_ := turnsAt_of_boundary mem
      have near := crossings_near (s.advanced a) a (s.axis a).plan.point (s.axis a).plan.dir
      rw [kept, turnsAt_of_effective (funext near.effective), out] at at_
      cases at_
    have freed : Free a crossings := crossings_free (advanced_free free)
    rw [crossed_of_referenced referenced]
    refine ⟨(boundaries_slot_other unbounded freed).trans kept, fun i m others => ?_⟩
    refine boundaries_keeps_item (fun k mem => others k ?_) (crossings_keeps_item (fun k mem => others k ?_)
      (by rw [list]; exact m) (advanced_free free)) freed
    · rintro rfl; exact unbounded mem
    · rintro rfl; exact uncrossed mem

/-- Items that name no entry stay in the list (R160). -/
theorem settled_keeps_unnaming (free : Free a s) (still : (s.axis a).plan.wrap = false) (mem : i ∈ (s.list a).items)
    (unnaming : ∀ k, i.names k = false) : i ∈ ((s.settled a).list a).items := by
  have list : i ∈ ((s.advanced a).list a).items := by
    rw [State.advanced, list_of_lists (advance_lists _ a), wrapped_plain still]; exact mem
  rw [settled_of_still still]
  unfold State.crossed; split
  · exact boundaries_keeps_item (fun k _ => unnaming k) (crossings_keeps_item (fun k _ => unnaming k) list
      (advanced_free free)) (crossings_free (advanced_free free))
  · exact list

/-- An inconsistent LIVE entry is fenced by its turn, or has none (R84). -/
theorem settled_slot_inconsistent {e : Entry} {r : Run} (free : Free a s) (still : (s.axis a).plan.wrap = false)
    (inside : (s.axis a).position < (s.axis a).modulus) (stepping : (s.axis a).stepping = true)
    (counts : (s.axis a).backlog ≠ 0) (below : h < Config.slotCount) (live : s.slot h = .live e false r)
    (own : e.axis = a) : (s.settled a).slot h = .fenced e false r.log
      ∨ (s.axis a).referenced = false ∨ s.turnsAt a (s.axis a).plan.point (s.slot h) = false := by
  cases referenced : (s.axis a).referenced with
  | false => exact .inr (.inl rfl)
  | true =>
    cases turn : s.turnsAt a (s.axis a).plan.point (s.slot h) with
    | false => exact .inr (.inr rfl)
    | true =>
      have notWraps : ¬ (s.axis a).Wraps := fun wraps => by simp [(plan_wrap_iff inside).2 wraps] at still
      have judges := judges_of_inForce free inside stepping counts referenced below
        (.untouched e false r live notWraps) own
      rw [live] at turn
      simp only [State.turnsAt, Slot.liveWith, own, beq_self_eq_true, Bool.true_and, Bool.or_eq_true, beq_iff_eq] at turn
      rw [State.effOn, State.effOff, ← advanced_effective still] at turn
      refine .inl ?_
      cases action : e.action with
      | window o off =>
        rw [settled_of_still still, crossed_slot_bounded judges referenced below own action
          (by simpa [Entry.off?, action, State.effOn] using turn)]
        exact if_pos rfl
      | _ =>
        have other : e.kind ≠ .window := by simp [Entry.kind, action]
        rw [settled_slot_crossed judges free referenced below own other
          (by simpa [Entry.off?, action, State.effOn] using turn)]
        exact if_pos rfl

end

end Sys2Proof.Machine
end

section
/-! SUPPORT. The application of a closed list at the entry into HALTED, and the settle of the applied entries (R39, R125). -/

namespace Sys2Proof.Machine

/-! ### What a list makes of a slot, item kind by item kind -/

section
variable {h : Nat} {e : Entry} {ok : Bool} {r : Run}

theorem afterItem_fenced (log : FireLog) (i : Item) :
    (Slot.fenced e ok log).afterItem h i = .fenced e ok log := by
  unfold Slot.afterItem
  cases i with
  | setLead o lead => simp [Item.names, Item.handle?, Item.hushes, Slot.liveWith]
  | _ => simp [Slot.failsCheck, Item.writes, Item.hushes]

theorem foldl_afterItem_fenced (log : FireLog) (xs : List Item) :
    xs.foldl (Slot.afterItem h) (.fenced e ok log) = .fenced e ok log := by
  induction xs with
  | nil => rfl
  | cons i xs ih => rw [List.foldl_cons, afterItem_fenced, ih]

/-- The first item that names an inconsistent STAGED entry fences it, with a fresh log (R120, log entry 9). -/
theorem foldl_afterItem_staged_fails {xs : List Item} (nodup : (xs.filterMap Item.handle?).Nodup) {i : Item} (mem : i ∈ xs)
    (named : i.names h = true) : xs.foldl (Slot.afterItem h) (.staged e false) = .fenced e false FireLog.fresh := by
  obtain ⟨before, after, rfl, first, -⟩ := split_named (h := h) nodup mem named
  have fenced : (Slot.staged e false).afterItem h i = .fenced e false FireLog.fresh := by
    simp [Slot.afterItem, named, Slot.failsCheck, Slot.onFence, Slot.toFence]
  rw [List.foldl_append, List.foldl_cons, foldl_afterItem_notLive before first (fun _ => rfl), fenced,
    foldl_afterItem_fenced]

/-- The first item that names an inconsistent LIVE entry fences it (R120). -/
theorem foldl_afterItem_live_fails {xs : List Item} (nodup : (xs.filterMap Item.handle?).Nodup) {i : Item} (mem : i ∈ xs)
    (named : i.names h = true) : xs.foldl (Slot.afterItem h) (.live e false r) = .fenced e false r.log := by
  obtain ⟨before, after, rfl, first, -⟩ := split_named (h := h) nodup mem named
  obtain ⟨act, held⟩ := foldl_afterItem_before before first e false r
  have fenced : (Slot.live e false { r with activity := act }).afterItem h i = .fenced e false r.log := by
    simp [Slot.afterItem, named, Slot.failsCheck, Slot.onFence, Slot.toFence]
  rw [List.foldl_append, List.foldl_cons, held, fenced, foldl_afterItem_fenced]

/-- A RETIRE of a list retires the consistent LIVE entry (R123). -/
theorem foldl_afterItem_retire {xs : List Item} (nodup : (xs.filterMap Item.handle?).Nodup) (mem : Item.retire h ∈ xs) :
    xs.foldl (Slot.afterItem h) (.live e true r) = retiredSlot e true r.log := by
  obtain ⟨before, after, rfl, first, last⟩ := split_named (h := h) nodup mem (by simp [Item.names, Item.handle?])
  obtain ⟨act, held⟩ := foldl_afterItem_before before first e true r
  have retired : (Slot.live e true { r with activity := act }).afterItem h (.retire h) = retiredSlot e true r.log := by
    simp [Slot.afterItem, Item.names, Item.handle?, Slot.failsCheck, Item.writes]
  rw [List.foldl_append, List.foldl_cons, held, retired]
  refine foldl_afterItem_notLive after last (fun p => ?_)
  unfold retiredSlot
  split <;> rfl

/-- The one SET_LEAD of an output gives it its lead (R124). -/
theorem foldl_leadAfter_named {o : OutId} {lead : Int} {xs : List Item} (nodup : (xs.filterMap Item.leadOf?).Nodup)
    (mem : Item.setLead o lead ∈ xs) (v : Int) : xs.foldl (Item.leadAfter o) v = lead := by
  obtain ⟨before, after, rfl⟩ := List.append_of_mem mem
  have unled : ∀ i ∈ after, i.leads o = false := by
    intro i m
    rw [Bool.eq_false_iff]
    intro led
    have named : (Item.setLead o lead).leadOf? = some o := rfl
    rw [List.filterMap_append, List.filterMap_cons_some named] at nodup
    have distinct := (List.nodup_cons.1 (List.nodup_middle.1 nodup)).1
    refine distinct (List.mem_append_right _ (List.mem_filterMap.2 ⟨i, m, ?_⟩))
    cases i with
    | setLead p lead => simpa [Item.leads, Item.leadOf?] using led
    | _ => cases led
  rw [List.foldl_append, List.foldl_cons, foldl_leadAfter_spared after unled]
  exact if_pos rfl

end

/-! ### The settle of an applied entry -/

/-- The run-time fields of an applied entry after its settle: a WINDOW that contains the position has fired (R74, R125). -/
def State.appliedRun (s : State) (referenced : Bool) (e : Entry) (log : FireLog) (revolution : BitVec 16) : Run :=
  if referenced = true ∧ e.off?.any (s.inWindow e) = true then
    fireLeaves ⟨.idle, false, log⟩ e revolution .none (.active none) true
  else ⟨.idle, false, log⟩

theorem appliedRun_of_inWindow {s t : State} {e : Entry} (same : t.inWindow e = s.inWindow e) (referenced : Bool)
    (log : FireLog) (revolution : BitVec 16) :
    t.appliedRun referenced e log revolution = s.appliedRun referenced e log revolution := by
  unfold State.appliedRun
  rw [same]

section
variable {s : State} {a : AxisId} {h : Nat} {e : Entry} {log : FireLog} {items : List Item}

theorem settle_slot_applied (live : s.slot h = .live e true ⟨.idle, false, log⟩) (own : e.axis = a)
    (working : (s.axis a).state ≠ .faulted) (free : Free a s) : (s.runEntry a (.settle h)).slot h
      = .live e true (s.appliedRun (s.axis a).referenced e log (s.axis a).revolution) := by
  show (s.judge a h (fun e r => s.settleEntry a h e r)).slot h = _
  unfold State.appliedRun
  cases referenced : (s.axis a).referenced with
  | false =>
    have unjudged : s.judged a h = none := by
      simp only [State.judged, live]
      rw [if_neg (by simp [referenced])]
    rw [judge_of_unjudged unjudged, live, if_neg (by simp)]
  | true =>
    rw [judge_of_ok (judged_of_live live own referenced working)]
    cases action : e.action with
    | window o off =>
      rw [settleEntry_slot_self live action free, State.settledSlot, own]
      by_cases inside : s.inWindow e off = true
      · rw [if_pos ⟨rfl, rfl, inside⟩, if_pos ⟨rfl, by simp [Entry.off?, action, inside]⟩]
      · rw [if_neg (fun all => inside all.2.2), if_neg (by simp [Entry.off?, action, inside])]
    | _ =>
      rw [if_neg (by simp [Entry.off?, action])]
      simpa only [State.settleEntry, action] using live

/-- The settle of a PLACED or ALTERED entry (R125). -/
theorem settleApplied_slot_applied (below : h < Config.slotCount) (live : s.slot h = .live e true ⟨.idle, false, log⟩)
    (own : e.axis = a) (working : (s.axis a).state ≠ .faulted)
    (named : .place h ∈ items ∨ ∃ v, .alter h v ∈ items) (free : Free a s) : (s.settleApplied a items).slot h
      = .live e true (s.appliedRun (s.axis a).referenced e log (s.axis a).revolution) := by
  have applied : e.appliedBy items h = true := by
    unfold Entry.appliedBy
    rw [List.any_eq_true]
    rcases named with mem | ⟨v, mem⟩
    · exact ⟨_, mem, by simp⟩
    · exact ⟨_, mem, by simp⟩
  have mem : h ∈ (s.order a).filter (fun h => (s.slot h).entry?.any (fun e => e.appliedBy items h)) := by
    rw [List.mem_filter, mem_order, live]
    exact ⟨⟨below, by simp [Slot.ordered, own]⟩, by simp [Slot.entry?, applied]⟩
  obtain ⟨u, near, slot, freed, turn⟩ :=
    turns_slot a (f := Task.settle) (fun _ => rfl) ((order_nodup s a).filter _) mem free
  have record := near.axis a
  unfold State.settleApplied State.settleAll
  rw [(takeEntries_free _ _ free).1, turn,
    settle_slot_applied (slot.trans live) own (by rw [record]; exact working) freed, record,
    appliedRun_of_inWindow (funext (near.inWindow e))]

end

end Sys2Proof.Machine
end

section
/-! SUPPORT. What the entry into HALTED makes of the entries and leads that a closed list names (R39, R119, R125). -/

namespace Sys2Proof.Machine

section
variable {s : State} {a : AxisId} {h : Nat} {e : Entry} {ok : Bool} {r : Run}

/-- Before the settle of the applied entries at the entry into HALTED. -/
def State.haltApplied (s : State) (a : AxisId) : State := (s.halted a).applyClosed a true

theorem haltApplied_free (free : Free a s) : Free a (s.haltApplied a) := applyClosed_keepsFree _ true (halted_free free)

theorem haltApplied_axis (s : State) (a : AxisId) : (s.haltApplied a).axis a = (s.axis a).halted :=
  (axis_of_axes (applyClosed_axes _ a true) a).trans (halted_axis_self s a)

theorem reachHalted_axes (free : Free a s) : (s.reachHalted a).axes = (s.haltApplied a).axes := by
  rw [reachHalted_free free, haltReached_axes, releaseAxis_axes, State.axes_of_still (settleApplied_still a _ _)]
  rfl

theorem reachHalted_slot (free : Free a s) (k : Nat) :
    (s.reachHalted a).slot k = ((s.haltApplied a).settleApplied a (s.list a).toApply).slot k := by
  rw [reachHalted_free free, haltReached_slot, releaseAxis_slot]
  rfl

theorem reachHalted_lead (free : Free a s) (o : OutId) :
    ((s.reachHalted a).output o).lead = ((s.haltApplied a).output o).lead := by
  rw [reachHalted_free free, State.output, haltReached_outputs]
  exact (releaseAxis_lead _ a o).trans (lead_of_fittings (takeEntries_fittings a _ _) o)

theorem reachHalted_inWindow (free : Free a s) (e : Entry) :
    (s.reachHalted a).inWindow e = (s.haltApplied a).inWindow e := by
  have axes := reachHalted_axes free
  have effective : (s.reachHalted a).effective e = (s.haltApplied a).effective e :=
    effective_eq (by rw [axis_of_axes axes]) (fun o _ => reachHalted_lead free o)
  funext off
  simp only [State.inWindow, State.effOn, effective, axis_of_axes axes]

/-- The entry into HALTED ends at most the activity of a LIVE entry before it applies the list (R39). -/
theorem halted_slot_live (live : s.slot h = .live e ok r) :
    ∃ act, (s.halted a).slot h = .live e ok { r with activity := act } := by
  by_cases encoder : (s.axis a).source = .encoder
  · rw [halted_encoder encoder, silenceAxis_slot, State.setAxis_slot, live]
    split
    · exact ⟨.idle, rfl⟩
    · exact ⟨r.activity, rfl⟩
  · rw [halted_plain encoder, State.setAxis_slot, live]
    exact ⟨r.activity, rfl⟩

theorem halted_slot_dead (dead : (s.slot h).liveWith (fun _ => true) = false) : (s.halted a).slot h = s.slot h := by
  by_cases encoder : (s.axis a).source = .encoder
  · rw [halted_encoder encoder, silenceAxis_slot, State.setAxis_slot]
    split
    · cases held : s.slot h with
      | live e ok r => rw [held] at dead; cases dead
      | _ => rfl
    · rfl
  · rw [halted_plain encoder, State.setAxis_slot]

theorem haltApplied_slot (free : Free a s) (closed : (s.list a).closed = true) (below : h < Config.slotCount) :
    (s.haltApplied a).slot h = (s.list a).items.foldl (Slot.afterItem h) ((s.halted a).slot h) := by
  have list := list_of_lists (halted_lists s a) a
  rw [State.haltApplied, applyClosed_slot (halted_free free) (by rw [list]; exact closed) true below, list]

/-! ### An entry that the list names -/

/-- A PLACED or ALTERED entry is settled (R125). -/
theorem reachHalted_slot_applied {log : FireLog} (free : Free a s) (closed : (s.list a).closed = true)
    (below : h < Config.slotCount) (own : e.axis = a)
    (named : .place h ∈ (s.list a).items ∨ ∃ v, .alter h v ∈ (s.list a).items)
    (live : (s.haltApplied a).slot h = .live e true ⟨.idle, false, log⟩) : (s.reachHalted a).slot h
      = .live e true ((s.reachHalted a).appliedRun ((s.reachHalted a).axis a).referenced e log (s.axis a).revolution) := by
  have items : (s.list a).toApply = (s.list a).items := by simp [PendingList.toApply, closed]
  have record := haltApplied_axis s a
  rw [reachHalted_slot free, items, settleApplied_slot_applied below live own
    (by rw [record]; simp [Axis.halted]) named (haltApplied_free free),
    appliedRun_of_inWindow (reachHalted_inWindow free e), axis_of_axes (reachHalted_axes free), record]
  rfl

/-- An entry that is no longer LIVE is not settled (R125). -/
theorem reachHalted_slot_dead {v : Slot} (free : Free a s) (dead : v.liveWith (fun _ => true) = false)
    (applied : (s.haltApplied a).slot h = v) : (s.reachHalted a).slot h = v := by
  rw [reachHalted_slot free, settleApplied_slot_calmed _ _ (haltApplied_free free), applied]
  rw [applied]
  rintro e ok r rfl
  cases dead

section
variable (free : Free a s) (closed : (s.list a).closed = true) (below : h < Config.slotCount)
  (nodup : ((s.list a).items.filterMap Item.handle?).Nodup)
include free closed below nodup

theorem reachHalted_place (own : e.axis = a) (item : .place h ∈ (s.list a).items) (staged : s.slot h = .staged e true) :
    (s.reachHalted a).slot h = .live e true
      ((s.reachHalted a).appliedRun ((s.reachHalted a).axis a).referenced e FireLog.fresh (s.axis a).revolution) := by
  refine reachHalted_slot_applied free closed below own (.inl item) ?_
  rw [haltApplied_slot free closed below, halted_slot_dead (by rw [staged]; rfl), staged,
    foldl_afterItem_place nodup item]
  rfl

theorem reachHalted_place_fails (item : .place h ∈ (s.list a).items) (staged : s.slot h = .staged e false) :
    (s.reachHalted a).slot h = .fenced e false FireLog.fresh := by
  refine reachHalted_slot_dead free rfl ?_
  rw [haltApplied_slot free closed below, halted_slot_dead (by rw [staged]; rfl), staged,
    foldl_afterItem_staged_fails nodup item (by simp [Item.names, Item.handle?])]

theorem reachHalted_alter {v : AlterValues} (own : e.axis = a) (item : .alter h v ∈ (s.list a).items)
    (live : s.slot h = .live e true r) : (s.reachHalted a).slot h = .live (v.writeTo e) true
      ((s.reachHalted a).appliedRun ((s.reachHalted a).axis a).referenced (v.writeTo e) r.log (s.axis a).revolution) := by
  refine reachHalted_slot_applied free closed below own (.inr ⟨v, item⟩) ?_
  obtain ⟨act, held⟩ := halted_slot_live (a := a) live
  rw [haltApplied_slot free closed below, held, foldl_afterItem_alter nodup item]

theorem reachHalted_retire (item : .retire h ∈ (s.list a).items) (live : s.slot h = .live e true r) :
    (s.reachHalted a).slot h = retiredSlot e true r.log := by
  refine reachHalted_slot_dead free (by unfold retiredSlot; split <;> rfl) ?_
  obtain ⟨act, held⟩ := halted_slot_live (a := a) live
  rw [haltApplied_slot free closed below, held, foldl_afterItem_retire nodup item]

theorem reachHalted_live_fails {i : Item} (item : i ∈ (s.list a).items) (named : i.names h = true)
    (live : s.slot h = .live e false r) : (s.reachHalted a).slot h = .fenced e false r.log := by
  refine reachHalted_slot_dead free rfl ?_
  obtain ⟨act, held⟩ := halted_slot_live (a := a) live
  rw [haltApplied_slot free closed below, held, foldl_afterItem_live_fails nodup item named]

end

theorem reachHalted_fenced {log : FireLog} (free : Free a s) (closed : (s.list a).closed = true)
    (below : h < Config.slotCount) (fenced : s.slot h = .fenced e ok log) : (s.reachHalted a).slot h = .fenced e ok log := by
  refine reachHalted_slot_dead free rfl ?_
  rw [haltApplied_slot free closed below, halted_slot_dead (by rw [fenced]; rfl), fenced, foldl_afterItem_fenced]

theorem reachHalted_setLead {o : OutId} {lead : Int} (free : Free a s) (closed : (s.list a).closed = true)
    (nodup : ((s.list a).items.filterMap Item.leadOf?).Nodup) (item : .setLead o lead ∈ (s.list a).items) :
    ((s.reachHalted a).output o).lead = lead := by
  have list := list_of_lists (halted_lists s a) a
  rw [reachHalted_lead free, State.haltApplied, applyClosed_lead (halted_free free) (by rw [list]; exact closed), list,
    foldl_leadAfter_named nodup item]

/-- The entry of an ENCODER axis into HALTED leaves its LIVE entries IDLE (R39). -/
theorem reachHalted_hushed (free : Free a s) (encoder : (s.axis a).source = .encoder) : (s.reachHalted a).Hushed a := by
  have silenced : (s.halted a).Hushed a := by rw [halted_encoder encoder]; exact silenceAxis_hushed _ a
  have applied : (s.haltApplied a).Hushed a := (hushed_listKept a true a).applyClosed silenced
  refine hushed_of_slots (fun h => ?_) applied
  have unjudged : ((s.haltApplied a).axis a).referenced = false := by
    rw [haltApplied_axis]
    simp [Axis.halted, encoder]
  rw [reachHalted_slot free, State.settleApplied, settleAll_unjudged (.inl unjudged) (haltApplied_free free)]

end

end Sys2Proof.Machine
end

section
/-! SUPPORT. The step that takes the last count of a halt: its list, its safe holds and the outcome of HALT_AXIS (R39, R125,
R152). -/

namespace Sys2Proof.Machine

section
variable {s : State} {a : AxisId}

/-! ### The port -/

theorem port_entryKept (p : Port) : EntryKept (fun s => s.port = p) where
  slot _ _ holds := holds
  output holds _ := holds
  invert {s} b o holds := by
    unfold State.invertOnce
    simp only
    split <;> exact holds
  drop _ _ holds := holds
  report {s} cause b p rev holds := by unfold State.reportFault; split <;> exact holds
  channel _ _ holds _ := holds

theorem port_listKept (x : AxisId) (announced : Bool) (p : Port) : ListKept x announced (fun s => s.port = p) where
  slot holds _ := holds
  output holds _ _ := holds
  list _ _ holds := holds
  latch _ holds := holds
  report {s} cause b p rev holds := by unfold State.reportFault; split <;> exact holds
  channel holds _ _ := holds

theorem releaseAxis_port (s : State) (a : AxisId) : (s.releaseAxis a).port = s.port := by
  unfold State.releaseAxis State.releaseWhere State.finishRelease
  split
  · split
    · split <;> rfl
    · rfl
  · rfl

theorem port_of_still {s t : State} (same : t.still = s.still) : t.port = s.port := by
  simp only [State.still, Prod.mk.injEq] at same
  exact same.2.1

theorem begun_port (s : State) (a : AxisId) : (s.begun a).port = s.port := by
  unfold State.begun; split
  · exact port_of_still (s := s.setAxis a ((s.axis a).wrapRevolution (s.axis a).plan.dir)) (foldl_clearSpent_still _ _)
  · rfl

/-- The parts of a step before its end leave the port. -/
theorem settled_port (s : State) (a : AxisId) : (s.settled a).port = s.port := by
  have wrapped : (s.wrapped a).port = s.port := by
    unfold State.wrapped; split
    · rw [releaseAxis_port]
      exact (port_listKept a true s.port).applyClosed (begun_port s a)
    · exact begun_port s a
  refine (port_entryKept s.port).settled id ?_
  unfold State.advanced State.advance; split
  · exact wrapped
  · exact wrapped

theorem silenceAxis_port (s : State) (a : AxisId) : (s.silenceAxis a).port = s.port := by
  have ended : ((s.liveOf a).foldl State.endActivity s).port = s.port :=
    port_of_still (foldl_keeps State.still State.endActivity endActivity_still (s.liveOf a) s)
  unfold State.silenceAxis
  generalize (s.liveOf a).foldl State.endActivity s = t at ended
  exact ended

theorem halted_port (s : State) (a : AxisId) : (s.halted a).port = s.port := by
  by_cases encoder : (s.axis a).source = .encoder
  · rw [halted_encoder encoder, silenceAxis_port]; rfl
  · rw [halted_plain encoder]; rfl

/-- The entry into HALTED gives a HALT_AXIS that waits for the axis its outcome (R38, R39). -/
theorem reachHalted_port (free : Free a s) (waits : s.port.state.work? = some (.halting a)) :
    (s.reachHalted a).port.state = s.port.state.makeReady .done [] := by
  have before : ((((s.halted a).applyClosed a true).settleApplied a (s.list a).toApply).releaseAxis a).port = s.port := by
    rw [releaseAxis_port]
    exact (port_entryKept s.port).takeEntries a _ ((port_listKept a true s.port).applyClosed (halted_port s a))
  rw [reachHalted_free free]
  unfold State.haltReached
  rw [before, if_pos waits]

/-! ### The safe holds -/

theorem releaseAxis_unheld {o : OutId} (unheld : (s.output o).safeHold = false) :
    ((s.releaseAxis a).output o).safeHold = false := by
  by_cases releasing : s.condition = .releasing
  · rw [(releaseAxis_of_releasing releasing a).holds, unheld]
    rfl
  · rw [releaseAxis_of_ne releasing]
    exact unheld

theorem clearSpent_aside (s : State) (h : Nat) : State.Aside s (s.clearSpent h) := by
  unfold State.clearSpent; split
  · exact aside_of_same rfl rfl rfl rfl
  · exact .refl s

theorem begun_aside (s : State) (a : AxisId) : State.Aside s (s.begun a) := by
  unfold State.begun; split
  · refine Kept.foldl (P := State.Aside s) (fun t h aside => aside.trans (clearSpent_aside t h)) _ ?_
    exact aside_of_same rfl rfl rfl rfl
  · exact .refl s

theorem advance_aside (s : State) (a : AxisId) : State.Aside s (s.advance a) := by
  unfold State.advance; split
  · exact aside_of_same rfl rfl rfl rfl
  · exact .refl s

theorem settled_aside (s : State) (a : AxisId) : State.Aside (s.wrapped a) (s.settled a) :=
  (aside_entryKept _).settled (fun aside => aside.trans (aside_of_same rfl rfl rfl rfl)) (advance_aside _ a)

theorem reachHalted_unheld {o : OutId} (free : Free a s) (unheld : (s.output o).safeHold = false) :
    ((s.reachHalted a).output o).safeHold = false := by
  have before : State.Aside s (((s.halted a).applyClosed a true).settleApplied a (s.list a).toApply) :=
    ((halted_aside s a).trans (applyClosed_aside _ a true)).trans (settleApplied_aside _ a _)
  rw [reachHalted_free free, ((haltReached_aside _ a).held o).1]
  exact releaseAxis_unheld ((before.held o).1.trans unheld)

/-- In RELEASING the outputs of the axis lose their safe holds, on a wrap within the step and else at the halt (R152). -/
theorem reachHalted_settled_unheld (free : Free a s) (releasing : s.condition = .releasing) {o : OutId}
    (own : (s.output o).binding = some a) : ((((s.settled a).reachHalted a)).output o).safeHold = false := by
  have after := settled_aside s a
  have freed := settled_free free
  cases wraps : (s.axis a).plan.wrap with
  | true =>
    have applied : State.Aside s ((s.begun a).applyClosed a true) := (begun_aside s a).trans (applyClosed_aside _ a true)
    have released := releaseAxis_of_releasing (applied.condition.trans releasing) a
    have wrapped : s.wrapped a = ((s.begun a).applyClosed a true).releaseAxis a := if_pos wraps
    refine reachHalted_unheld freed ((after.held o).1.trans ?_)
    rw [wrapped, released.holds, (applied.held o).2, own]
    simp
  | false =>
    rw [wrapped_plain wraps] at after
    exact (reachHalted_halts freed).released (after.condition.trans releasing) o ((after.held o).2.trans own)

/-! ### The list -/

theorem applied_entryKept (a : AxisId) : EntryKept (fun s => s.Applied a) where
  slot _ _ holds := holds
  output holds _ := holds
  invert {s} b o holds := applied_of_lists (invertOnce_lists s b o) (invertOnce_aside s b o).raises holds
  drop b h holds :=
    have cleared := (cleared_entryKept a).drop b h ⟨holds.1, holds.2.1⟩
    ⟨cleared.1, cleared.2, holds.2.2⟩
  report {s} cause b p rev holds :=
    applied_of_lists (reportFault_lists s cause b p rev) (reportFault_aside s cause b p rev).raises holds
  channel _ _ holds _ := holds

/-- With no closed list the entry into HALTED leaves an applied list so. -/
theorem reachHalted_applied (free : Free a s) (applied : s.Applied a) : (s.reachHalted a).Applied a := by
  rw [reachHalted_open free applied.1]
  refine applied_of_lists ((haltReached_lists _ a).trans ((releaseAxis_lists _ a).trans (halted_lists s a))) ?_ applied
  exact fun r set => (haltReached_aside _ a).raises r (releaseAxis_raises _ a r ((halted_aside s a).raises r set))

/-- A closed list has been applied when the axis is HALTED: on a wrap within the step, else at the halt (R39, R60, R125). -/
theorem reachHalted_settled_applied (free : Free a s) (closed : (s.list a).closed = true) :
    ((((s.settled a).reachHalted a)).list a).items = []
      ∧ ((s.settled a).reachHalted a).latched &&& reasonBatchApplied = reasonBatchApplied := by
  have freed := settled_free free
  cases wraps : (s.axis a).plan.wrap with
  | true =>
    have closed' : ((s.begun a).list a).closed = true := by rw [list_of_lists (begun_lists s a)]; exact closed
    have wrapped : (s.wrapped a).Applied a := by
      unfold State.wrapped
      rw [if_pos wraps, applyClosed_free _ true closed' (begun_free free)]
      exact applied_of_lists (releaseAxis_lists _ a) (releaseAxis_raises _ a) (endApplication_applied _ a)
    have settled : (s.settled a).Applied a := by
      refine (applied_entryKept a).settled (fun applied => applied_of_lists rfl (fun _ => id) applied) ?_
      exact applied_of_lists (advance_lists _ a) (advance_aside _ a).raises wrapped
    exact (reachHalted_applied freed settled).2
  | false => exact (reachHalted_halts freed).applied ((settled_listWithin wraps).1.trans closed)

/-- No list is applied at the halt where none is closed, or the step wraps (R39, R60). -/
theorem settled_open (free : Free a s) (opened : (s.list a).closed = false ∨ (s.axis a).Wraps) :
    ((s.settled a).list a).closed = false := by
  cases wraps : (s.axis a).plan.wrap with
  | true => exact settled_opened free wraps
  | false =>
    refine (settled_listWithin wraps).1.trans (opened.resolve_right (fun crosses => ?_))
    unfold Axis.plan at wraps
    unfold Axis.Wraps at crosses
    split at crosses
    · next forward =>
      rw [if_pos forward] at wraps
      simp only [decide_eq_false_iff_not] at wraps
      omega
    · next reverse =>
      rw [if_neg reverse] at wraps
      simp [crosses] at wraps

/-! ### The halt of an ENCODER axis -/

/-- An ENCODER axis goes through the step of a STEPPED axis, and then loses its reference and its activity (R39). -/
theorem stepped_encoder (free : Free a s) (halting : (s.axis a).state = .halting)
    (last : (s.axis a).backlog = 1 ∨ (s.axis a).backlog = -1) (encoder : (s.axis a).source = .encoder)
    (opened : (s.list a).closed = false ∨ (s.axis a).Wraps) :
    s.stepped a = ((s.sourced a .stepped).stepped a).unreferenced a := by
  have record := settled_axis_self (stepping_of_halting halting) (counts_of_last last)
  have source : ((s.settled a).axis a).source = .encoder := by
    rw [record, turned_advance_last last]; exact encoder
  have settled : (s.sourced a .stepped).settled a = (s.settled a).sourced a .stepped := settled_sourced s
  have stepped : (s.sourced a .stepped).stepped a = ((s.settled a).sourced a .stepped).reachHalted a := by
    rw [← settled]
    exact stepped_of_halting (by rw [sourced_axis_self]; exact halting) (by rw [sourced_axis_self]; exact last)
  rw [stepped, stepped_of_halting halting last, reachHalted_encoder (settled_free free) source (settled_open free opened)]

theorem unreferenced_ahead (s : State) (l : List StopPoint) (a : AxisId) :
    (s.ahead l).unreferenced a = (s.unreferenced a).ahead l :=
  silenceAxis_ahead (s.setAxis a { s.axis a with source := .encoder, referenced := false }) l a

end

end Sys2Proof.Machine
end

section
/-! SUPPORT. A list that is applied at the halt which a step without a wrap ends (R39, R119, R125). -/

namespace Sys2Proof.Machine

/-- The step of `a` takes the last count of a halt without a wrap, and its list is closed and names no handle twice. -/
structure State.HaltApplies (s : State) (a : AxisId) : Prop where
  free : Free a s
  halting : (s.axis a).state = .halting
  last : (s.axis a).backlog = 1 ∨ (s.axis a).backlog = -1
  inside : (s.axis a).position < (s.axis a).modulus
  stays : ¬ (s.axis a).Wraps
  closed : (s.list a).closed = true
  nodup : ((s.list a).items.filterMap Item.handle?).Nodup

/-- The step has no turn of this entry: the axis is not REFERENCED, or no point of the entry is at the step point. -/
def State.Still (s : State) (a : AxisId) (e : Entry) : Prop :=
  (s.axis a).referenced = false ∨ (s.effOn e ≠ (s.axis a).stepPoint ∧ s.effOff e ≠ some (s.axis a).stepPoint)

section
variable {s : State} {a : AxisId} {h : Nat} {e : Entry} {r : Run} {i : Item}

theorem names_unique {k : Nat} (named : i.names h = true) (ne : k ≠ h) : i.names k = false := by
  have handle : i.handle? = some h := by simpa [Item.names] using named
  simp [Item.names, handle, Ne.symm ne]

theorem State.HaltApplies.plain (applies : s.HaltApplies a) : (s.axis a).plan.wrap = false := by
  rw [Bool.eq_false_iff]
  exact fun wrap => applies.stays ((plan_wrap_iff applies.inside).1 wrap)

theorem State.HaltApplies.within (applies : s.HaltApplies a) : (s.settled a).ListWithin a (s.list a) :=
  settled_listWithin applies.plain

theorem State.HaltApplies.closes (applies : s.HaltApplies a) : ((s.settled a).list a).closed = true :=
  applies.within.1.trans applies.closed

theorem State.HaltApplies.distinct (applies : s.HaltApplies a) :
    (((s.settled a).list a).items.filterMap Item.handle?).Nodup :=
  applies.nodup.sublist (applies.within.2.filterMap Item.handle?)

theorem State.HaltApplies.revolution (applies : s.HaltApplies a) :
    ((s.settled a).axis a).revolution = (s.axis a).revolution := by
  have turned : (s.axis a).turned = s.axis a := by
    unfold Axis.turned; rw [if_neg (by simp [applies.plain])]
  rw [settled_axis_self (stepping_of_halting applies.halting) (counts_of_last applies.last),
    turned_advance_last applies.last, turned]

/-- An entry without a turn keeps its slot and its item until the halt (R63, R68). -/
theorem State.HaltApplies.untouched (applies : s.HaltApplies a)
    (away : (s.axis a).referenced = false ∨ s.turnsAt a (s.axis a).plan.point (s.slot h) = false)
    (item : i ∈ (s.list a).items) (named : i.names h = true) :
    (s.settled a).slot h = s.slot h ∧ i ∈ ((s.settled a).list a).items := by
  obtain ⟨slot, items⟩ := settled_untouched applies.free applies.plain away
  exact ⟨slot, items i item (fun _ ne => names_unique named ne)⟩

theorem State.HaltApplies.away (applies : s.HaltApplies a) {ok : Bool} (live : s.slot h = .live e ok r)
    (still : s.Still a e) : (s.axis a).referenced = false ∨ s.turnsAt a (s.axis a).plan.point (s.slot h) = false := by
  refine still.imp_right (fun ⟨on, off⟩ => ?_)
  rw [live, plan_point applies.inside]
  simp [State.turnsAt, Slot.liveWith, on, off]

/-- A PLACED or ALTERED entry after the halt (R121, R122, R125). -/
def State.AppliedIn (t : State) (a : AxisId) (revolution : BitVec 16) (h : Nat) (e : Entry) (log : FireLog) : Prop :=
  t.slot h = .live e true (t.appliedRun (t.axis a).referenced e log revolution)

section
variable (applies : s.HaltApplies a) (below : h < Config.slotCount)
include applies below

theorem halt_places (own : e.axis = a) (item : .place h ∈ (s.list a).items) (staged : s.slot h = .staged e true) :
    ((s.settled a).reachHalted a).AppliedIn a (s.axis a).revolution h e FireLog.fresh := by
  obtain ⟨slot, item⟩ := applies.untouched (.inr (by rw [staged]; rfl)) item (by simp [Item.names, Item.handle?])
  have placed := reachHalted_place (settled_free applies.free) applies.closes below applies.distinct own item
    (slot.trans staged)
  rwa [applies.revolution] at placed

theorem halt_place_fails (item : .place h ∈ (s.list a).items) (staged : s.slot h = .staged e false) :
    ((s.settled a).reachHalted a).slot h = .fenced e false FireLog.fresh := by
  obtain ⟨slot, item⟩ := applies.untouched (.inr (by rw [staged]; rfl)) item (by simp [Item.names, Item.handle?])
  exact reachHalted_place_fails (settled_free applies.free) applies.closes below applies.distinct item (slot.trans staged)

theorem halt_alters {v : AlterValues} (own : e.axis = a) (item : .alter h v ∈ (s.list a).items)
    (live : s.slot h = .live e true r) (still : s.Still a e) :
    ((s.settled a).reachHalted a).AppliedIn a (s.axis a).revolution h (v.writeTo e) r.log := by
  obtain ⟨slot, item⟩ := applies.untouched (applies.away live still) item (by simp [Item.names, Item.handle?])
  have altered := reachHalted_alter (settled_free applies.free) applies.closes below applies.distinct own item
    (slot.trans live)
  rwa [applies.revolution] at altered

theorem halt_retires (item : .retire h ∈ (s.list a).items) (live : s.slot h = .live e true r) (still : s.Still a e) :
    ((s.settled a).reachHalted a).slot h = retiredSlot e true r.log := by
  obtain ⟨slot, item⟩ := applies.untouched (applies.away live still) item (by simp [Item.names, Item.handle?])
  exact reachHalted_retire (settled_free applies.free) applies.closes below applies.distinct item (slot.trans live)

/-- An inconsistent LIVE entry that the list names is fenced, by its turn in the step or by the application (R84, R120). -/
theorem halt_live_fails (own : e.axis = a) (item : i ∈ (s.list a).items) (named : i.names h = true)
    (live : s.slot h = .live e false r) : ((s.settled a).reachHalted a).slot h = .fenced e false r.log := by
  have free := settled_free applies.free
  rcases settled_slot_inconsistent applies.free applies.plain applies.inside (stepping_of_halting applies.halting)
    (counts_of_last applies.last) below live own with fenced | away
  · exact reachHalted_fenced free applies.closes below fenced
  · obtain ⟨slot, item⟩ := applies.untouched away item named
    exact reachHalted_live_fails free applies.closes below applies.distinct item named (slot.trans live)

end

theorem halt_leads (applies : s.HaltApplies a) (nodup : ((s.list a).items.filterMap Item.leadOf?).Nodup) {o : OutId}
    {lead : Int} (item : .setLead o lead ∈ (s.list a).items) :
    (((s.settled a).reachHalted a).output o).lead = lead := by
  have kept := settled_keeps_unnaming applies.free applies.plain item (fun k => by simp [Item.names, Item.handle?])
  exact reachHalted_setLead (settled_free applies.free) applies.closes
    (nodup.sublist (applies.within.2.filterMap Item.leadOf?)) kept

/-! ### The whole step -/

/-- What the entries and leads become that the list names, when it is applied at the halt (R120 to R125). -/
structure State.HaltNames (s : State) (a : AxisId) (t : State) : Prop where
  places : ∀ {h e}, h < Config.slotCount → e.axis = a → .place h ∈ (s.list a).items → s.slot h = .staged e true →
    t.AppliedIn a (s.axis a).revolution h e FireLog.fresh
  placeFails : ∀ {h e}, h < Config.slotCount → .place h ∈ (s.list a).items → s.slot h = .staged e false →
    t.slot h = .fenced e false FireLog.fresh
  alters : ∀ {h e r v}, h < Config.slotCount → e.axis = a → .alter h v ∈ (s.list a).items → s.slot h = .live e true r →
    s.Still a e → t.AppliedIn a (s.axis a).revolution h (v.writeTo e) r.log
  retires : ∀ {h e r}, h < Config.slotCount → .retire h ∈ (s.list a).items → s.slot h = .live e true r → s.Still a e →
    t.slot h = retiredSlot e true r.log
  liveFails : ∀ {h e r i}, h < Config.slotCount → e.axis = a → i ∈ (s.list a).items → i.names h = true →
    s.slot h = .live e false r → t.slot h = .fenced e false r.log
  leads : ((s.list a).items.filterMap Item.leadOf?).Nodup → ∀ {o lead}, .setLead o lead ∈ (s.list a).items →
    (t.output o).lead = lead

theorem stepped_haltNames (applies : s.HaltApplies a) : s.HaltNames a (s.stepped a) := by
  rw [stepped_of_halting applies.halting applies.last]
  exact ⟨halt_places applies, halt_place_fails applies, fun below => halt_alters applies below, halt_retires applies,
    fun below => halt_live_fails applies below, fun nodup _ _ => halt_leads applies nodup⟩

/-- What the step that takes the last count of a halt makes of the axis, its list, its outputs and the port (R38, R39, R125,
R152). -/
structure State.HaltSteps (s : State) (a : AxisId) (t : State) : Prop where
  record : t.axis a = (s.axis a).turned.advance.halted
  others : ∀ b, b ≠ a → t.axis b = s.axis b
  hushed : (s.axis a).source = .encoder → t.Hushed a
  opened : (t.list a).closed = false
  applied : (s.list a).closed = true → (t.list a).items = [] ∧ t.latched &&& reasonBatchApplied = reasonBatchApplied
  unheld : s.condition = .releasing → ∀ o, (s.output o).binding = some a → (t.output o).safeHold = false
  outcome : s.port.state.work? = some (.halting a) → t.port.state = s.port.state.makeReady .done []

theorem stepped_haltSteps (free : Free a s) (halting : (s.axis a).state = .halting)
    (last : (s.axis a).backlog = 1 ∨ (s.axis a).backlog = -1) : s.HaltSteps a (s.stepped a) := by
  have freed := settled_free free
  have halts := reachHalted_halts freed
  have record := settled_axis_self (stepping_of_halting halting) (counts_of_last last)
  have port := settled_port s a
  rw [stepped_of_halting halting last]
  refine ⟨by rw [halts.own, record], fun b ne => ?_, fun encoder => ?_, halts.opened, reachHalted_settled_applied free,
    fun releasing o own => reachHalted_settled_unheld free releasing own, fun waits => ?_⟩
  · rw [halts.others b ne, (settled_near s a).axis, advanced_axis_of_ne ne]
  · refine reachHalted_hushed freed ?_
    rw [record, turned_advance_last last]
    exact encoder
  · rw [reachHalted_port freed (by rw [port]; exact waits), port]

/-- The record of an axis that the step makes HALTED (R39, R51, R60). -/
theorem last_halted {x : Axis} (last : x.backlog = 1 ∨ x.backlog = -1) (inside : x.position < x.modulus) :
    x.turned.advance.halted = { x with
      state := .halted, backlog := 0, position := (((x.position : Int) + x.backlog) % (x.modulus : Int)).toNat
      revolution := x.stepRevolution, referenced := x.referenced && x.source != .encoder
      silentDue := x.silentDue && x.source != .encoder } := by
  have unit : x.unit = x.backlog := by
    unfold Axis.unit
    rcases last with forward | reverse
    · simp [forward]
    · simp [reverse]
  rw [turned_advance_last last, plan_newPosition inside, turned_revolution inside, unit]
  rfl

end

end Sys2Proof.Machine

open Sys2Proof Sys2Proof.Machine

/-- Settles O28: the parts of the step before its end, and then the entry into HALTED, part by part. -/
theorem lastCountReachesHalted : Obligations.LastCountReachesHalted := by
  unfold Obligations.LastCountReachesHalted
  intro s a x m step l quiet halting last
  have free := free_ahead quiet
  have taken := execStep_quiet quiet (stepping_of_halting halting) (counts_of_last last)
  have steps : (s.ahead []).HaltSteps a ((s.ahead []).stepped a) := stepped_haltSteps free halting last
  have names := stepped_haltNames (s := s.ahead []) (a := a)
  have loses := stepped_encoder (s := s.ahead []) free halting last
  generalize (s.ahead []).stepped a = t at taken steps names loses
  have halted : x.turned.advance.halted.state = .halted ∧ x.turned.advance.halted.backlog = 0
      ∧ x.turned.advance.halted.referenced = (x.referenced && x.source != .encoder) := by
    rw [turned_advance_last last]
    exact ⟨rfl, rfl, rfl⟩
  have record : (t.ahead s.stops).axis a = x.turned.advance.halted := steps.record
  refine ⟨_, taken, ?_, ?_, fun inside => ?_, steps.others, fun encoder => ⟨?_, steps.hushed encoder⟩, fun other => ?_,
    fun encoder opened => ?_, steps.opened, steps.applied, fun closed stays inside nodup => ?_, steps.unheld,
    fun code tag waits => ?_, fun code tag waits => ?_⟩
  · rw [record]; exact halted.1
  · rw [record]; exact halted.2.1
  · rw [record]; exact last_halted last inside
  · rw [record, halted.2.2, encoder]; simp
  · rw [record, halted.2.2]; simp [other]
  · have sourced : s.setAxis a { x with source := .stepped } = s.sourced a .stepped := rfl
    have self := sourced_axis_self (a := a) (src := .stepped) s
    refine ⟨_, execStep_quiet (s := s.setAxis a { x with source := .stepped }) quiet
      (by rw [sourced, self]; exact stepping_of_halting halting) (by rw [sourced, self]; exact counts_of_last last), ?_⟩
    rw [loses encoder opened, ← unreferenced_ahead]
    rfl
  · have named := names ⟨free, halting, last, inside, stays, closed, nodup⟩
    refine ⟨fun h below e r own => ⟨named.places below own, named.placeFails below, fun v item live still => ?_,
      fun item live still => ?_, fun live ⟨i, item, names, _⟩ => named.liveFails below own item names live⟩,
      fun distinct o lead item => named.leads distinct item⟩
    · exact named.alters below own item live still
    · exact named.retires below item live still
  · show t.port.state = _
    rw [steps.outcome (by show s.port.state.work? = _; rw [waits]; rfl)]
    show s.port.state.makeReady .done [] = _
    rw [waits]
    rfl
  · show t.port.state = _
    rw [steps.outcome (by show s.port.state.work? = _; rw [waits]; rfl)]
    show s.port.state.makeReady .done [] = _
    rw [waits]
    rfl

end
